-- ==== Sys2Proof/Word.lean ====
section
/-! DEFINITION. The byte, and the vector of eight bytes that a frame, a key and the mask are (R11). -/

namespace Sys2Proof

/-- An unsigned 8-bit value; bit 7 is the most significant (R11). -/
abbrev Byte := BitVec 8

/-- Eight bytes indexed 0 to 7, byte 0 first on the transport (R11).  Every RAW, P, X, R, D, F, KEY and MASK is one. -/
structure Frame where
  b0 : Byte
  b1 : Byte
  b2 : Byte
  b3 : Byte
  b4 : Byte
  b5 : Byte
  b6 : Byte
  b7 : Byte
deriving DecidableEq, Repr

/-- An obfuscation key is eight bytes; every value is legal (R22). -/
abbrev Key := Frame

end Sys2Proof
end

