-- ==== Sys2Proof/Config.lean ====
section
/-! DEFINITION. What is fixed for the block: the constants of R7, R30 to R32, and the open parameters of R8 (constants with no body). -/

namespace Sys2Proof.Config

/-- FRAME_LEN (R7): bytes of a RawFrame and of a DecodedFrame. -/
def frameLen : Nat := 8

/-- MARKER (R7, R32): required value of byte 4 of a decoded frame. -/
def marker : Byte := 0x0d#8

/-- CODE_HUM (R7, R32). -/
def codeHum : Byte := 0x41#8

/-- CODE_TEMP (R7, R32). -/
def codeTemp : Byte := 0x42#8

/-- CODE_CO2 (R7, R32). -/
def codeCo2 : Byte := 0x50#8

/-- CO2_LIMIT (R7, R32, R248): a value strictly above it is warm-up noise. -/
def co2Limit : Nat := 3000

/-- FW_LIMIT (R7, R32, R248): the decryptor runs when the release number is at most this. -/
def fwLimit : Nat := 0x0100

/-- TIMEOUT_DEFAULT (R7, R24): 5 seconds, in milliseconds. -/
def timeoutDefaultMs : Nat := 5000

/-- KEY_DEFAULT (R7, R22): eight zero bytes. -/
def keyDefault : Key := ⟨0, 0, 0, 0, 0, 0, 0, 0⟩

/-- DEBUG_DEFAULT (R7, R25). -/
def debugDefault : Bool := false

/-- MASK_TEXT (R7, R31), the eight characters of the additive mask's source. -/
def maskText : List Char := ['H', 't', 'e', 'm', 'p', '9', '9', 'e']

/-- How far TIMEOUT_MAX_MS lies above the default.  Open parameter (R8, D19): no value. -/
opaque timeoutHeadroomMs : Nat

/-- TIMEOUT_MAX_MS (R8, R24, D19): open, but not below the reset value, since R24 gives MS(5000) as a legal value.
DEDUCED, notes/assumptions/4.md. -/
def timeoutMaxMs : Nat := timeoutDefaultMs + timeoutHeadroomMs

/-- Whether a duration with a fraction of a millisecond is rounded up to the next whole millisecond or down.  The source gives no
rounding (R121, N9): a free value for each duration, DESIGN CHOICE, notes/assumptions/5.md. -/
opaque roundsUp : Rat → Bool

/-- VID (R8, N4): not in the source, no value. -/
opaque vendorId : Nat

/-- PID (R8, N4): not in the source, no value. -/
opaque productId : Nat

end Sys2Proof.Config
end

