-- ==== Sys2Proof/Syntax.lean ====
section
/-! DEFINITION. The operations of the block (R76, one constructor per row of spec/opcode_table.json) and the data their operands are. -/

namespace Sys2Proof

/-- The answer of TransportRead (R53): IOERR, or OK(n, bytes) with n the number of bytes. -/
inductive ReadAnswer where
  | ioerr
  | ok (bytes : List Byte)
deriving DecidableEq, Repr

/-- What one call of TransportRead comes to: it answers, or it never returns (R211, I14). -/
inductive ReadReply where
  | answered (a : ReadAnswer)
  | never
deriving DecidableEq, Repr

/-- The answer of FeatureWrite (R54). -/
inductive WriteAnswer where
  | ok
  | err
deriving DecidableEq, Repr

/-- The transport's answers to one OPEN (R52, R54, R55, R80): ERR of TransportOpen, after which nothing else is called,
or a handle, then the release number (a natural number, D6), then the answer of FeatureWrite. -/
inductive OpenReply where
  | err
  | ok (fwRelease : Nat) (feat : WriteAnswer)
deriving DecidableEq, Repr

/-- The operand of CONFIG.TIMEOUT (R121): none, or a duration in milliseconds, negative and fractional ones included. -/
inductive TimeoutSetting where
  | none
  | duration (ms : Rat)
deriving DecidableEq, Repr

/-- The eight event kinds of R74.  A scaled reading carries V; its real number is a function of V (R14, D7). -/
inductive Event where
  | ambientTemperature (v : BitVec 16)
  | relativeConcentration (v : BitVec 16)
  | humidity (v : BitVec 16)
  | unexpectedData (f : Frame)
  | wrongPacket
  | checksumError
  | uninitializedData
  | unknownCode (f : Frame)
deriving DecidableEq, Repr

/-- The outcome of one READ (R74): an event, or NONE, the end of the sequence. -/
inductive ReadOutcome where
  | event (e : Event)
  | endOfSequence
deriving DecidableEq, Repr

/-- Bytes 5, 6 and 7 of a decoded frame: any values, carried through (R72, R78). -/
structure Pad where
  b5 : Byte
  b6 : Byte
  b7 : Byte
deriving DecidableEq, Repr

/-- The operations.  A caller's command carries the caller's operands and the transport's answers to it, as a line of R80 does;
a stage carries the values its rule names as operands, registers excepted; an operation selected by frame bits carries the
frame's fields.  The registers KEY, DEC_EN, TIMEOUT, DEBUG and PHASE are read from the state. -/
inductive Instr where
  /-- CONFIG.KEY (R120). -/
  | configKey (k : Key)
  /-- CONFIG.DEBUG (R120). -/
  | configDebug (d : Bool)
  /-- CONFIG.TIMEOUT (R121). -/
  | configTimeout (t : TimeoutSetting)
  /-- OPEN (R122 to R124). -/
  | openSession (r : OpenReply)
  /-- CLOSE (R126). -/
  | closeSession
  /-- READ (R180). -/
  | readOne (rx : ReadReply)
  /-- RECV (R140). -/
  | recv (rx : ReadReply)
  /-- IOCHK (R141), on the answer of RECV. -/
  | iochk (a : ReadAnswer)
  /-- LENCHK (R142), on N. -/
  | lenchk (n : Nat)
  /-- DECSEL (R143), on RAW. -/
  | decsel (raw : Frame)
  /-- PERM (R100), on RAW. -/
  | perm (raw : Frame)
  /-- XORK (R101), on P. -/
  | xork (p : Frame)
  /-- ROTR3 (R102), on X. -/
  | rotr3 (x : Frame)
  /-- UNMASK (R103), on R. -/
  | unmask (r : Frame)
  /-- DECRYPT (R104), on RAW. -/
  | decrypt (raw : Frame)
  /-- MARKCHK (R144), on F. -/
  | markchk (f : Frame)
  /-- SUMCHK (R145), on F. -/
  | sumchk (f : Frame)
  /-- VALUE (R160), on F[1] and F[2]. -/
  | value (hi lo : Byte)
  /-- DISPATCH (R165), on F[0]. -/
  | dispatch (code : Byte)
  /-- CLS.HUM (R161), on V; the pad is in the frame and is not used. -/
  | clsHum (v : BitVec 16) (pad : Pad)
  /-- CLS.TEMP (R162), on V. -/
  | clsTemp (v : BitVec 16) (pad : Pad)
  /-- CLS.CO2 (R163), on V. -/
  | clsCo2 (v : BitVec 16) (pad : Pad)
  /-- CLS.UNK (R164), on all of F. -/
  | clsUnk (f : Frame)
  /-- DBGTAP (R183), on the received bytes (N is their number), F if step 4 was reached, and the outcome. -/
  | dbgtap (bytes : List Byte) (f : Option Frame) (o : ReadOutcome)
deriving DecidableEq, Repr

/-- Why a sequence of bytes is no decoded frame. -/
inductive DecodeError where
  /-- The count is not 8 (R79): the one length a frame has. -/
  | wrongLength (n : Nat)
deriving DecidableEq, Repr

end Sys2Proof
end

