-- ==== Sys2Proof/Machine/Bytes.lean ====
section
/-! DEFINITION. The byte primitives of R12, the wider values of R13, and the two ways a frame is laid out (R60: bytes, R13: the word W). -/

namespace Sys2Proof

/-- `shl8(a, k)` of R12: bits shifted out at the top are lost. -/
def shl8 (a : Byte) (k : Nat) : Byte := a <<< k

/-- `shr8(a, k)` of R12: zeros enter at the top. -/
def shr8 (a : Byte) (k : Nat) : Byte := a >>> k

/-- `add8` of R12, modulo 256. -/
def add8 (a b : Byte) : Byte := a + b

/-- `sub8` of R12, modulo 256. -/
def sub8 (a b : Byte) : Byte := a - b

/-- `swap4` of R12: the two 4-bit halves exchanged. -/
def swap4 (a : Byte) : Byte := shl8 a 4 ||| shr8 a 4

/-- `u16(hi, lo)` of R13: big-endian, unsigned. -/
def u16 (hi lo : Byte) : BitVec 16 := hi ++ lo

/-- `f[i]` of R11. -/
def Frame.get (f : Frame) (i : Fin 8) : Byte :=
  match i with
  | 0 => f.b0
  | 1 => f.b1
  | 2 => f.b2
  | 3 => f.b3
  | 4 => f.b4
  | 5 => f.b5
  | 6 => f.b6
  | 7 => f.b7

/-- The frame whose byte i is `g i`: the loops `for i in 0..7` of the rules. -/
def Frame.ofFn (g : Fin 8 → Byte) : Frame :=
  ⟨g 0, g 1, g 2, g 3, g 4, g 5, g 6, g 7⟩

/-- The bytes of a frame in the order of the wire (R60). -/
def Frame.toBytes (f : Frame) : List Byte :=
  [f.b0, f.b1, f.b2, f.b3, f.b4, f.b5, f.b6, f.b7]

/-- `RAW[i] <- bytes[i]` (R140); it is used on eight bytes only. -/
def Frame.ofBytes (bytes : List Byte) : Frame :=
  Frame.ofFn fun i => bytes.getD i.val 0

/-- `W(f)` of R13: byte 0 in bits 63:56, byte 7 in bits 7:0. -/
def Frame.word (f : Frame) : BitVec 64 :=
  f.b0 ++ f.b1 ++ f.b2 ++ f.b3 ++ f.b4 ++ f.b5 ++ f.b6 ++ f.b7

/-- The frame with a given W: byte i is bits 63-8i : 56-8i. -/
def Frame.ofWord (w : BitVec 64) : Frame :=
  Frame.ofFn fun i => w.extractLsb' (8 * (7 - i.val)) 8

/-- Bytes 5 to 7 of a frame. -/
def Frame.pad (f : Frame) : Pad := ⟨f.b5, f.b6, f.b7⟩

/-- `(i + 7) mod 8`, the index of the preceding byte (R102). -/
def prevIdx (i : Fin 8) : Fin 8 := i + 7

/-- `(i + 1) mod 8`, the index of the following byte (R107). -/
def nextIdx (i : Fin 8) : Fin 8 := i + 1

end Sys2Proof
end

