-- ==== Sys2Proof/Machine/Flags.lean ====
section
/-! DEFINITION. The conditions of R29, the comparison that sets DEC_EN (R122) and the CO2 filter's test (R163). -/

namespace Sys2Proof.Machine

open Sys2Proof

/-- N of R140: the byte count the transport reports (0 where it reports a failure, when no rule reads it). -/
def countOf (a : ReadAnswer) : Nat :=
  match a with
  | .ioerr => 0
  | .ok bytes => bytes.length

/-- The bytes placed in the buffer (R53). -/
def bytesOf (a : ReadAnswer) : List Byte :=
  match a with
  | .ioerr => []
  | .ok bytes => bytes

/-- IO_OK (R29, R141). -/
def ioOk (a : ReadAnswer) : Bool :=
  match a with
  | .ioerr => false
  | .ok _ => true

/-- LEN_OK (R29, R142), on natural numbers. -/
def lenOk (n : Nat) : Bool := n == Config.frameLen

/-- MARK_OK (R29, R144): all eight bits compared. -/
def markOk (f : Frame) : Bool := f.get 4 == Config.marker

/-- SUM (R145): 8-bit addition with wraparound. -/
def checksum (f : Frame) : Byte := add8 (add8 (f.get 0) (f.get 1)) (f.get 2)

/-- SUM_OK (R29, R145). -/
def sumOk (f : Frame) : Bool := checksum f == f.get 3

/-- Valid protocol data (R146). -/
def validFrame (f : Frame) : Bool := markOk f && sumOk f

/-- `zext(V) > 3000` (R163): unsigned and strict. -/
def aboveCo2Limit (v : BitVec 16) : Bool := decide (v.toNat > Config.co2Limit)

/-- `fw_release <= 0x0100` (R122): the value OPEN gives DEC_EN. -/
def decodeEnabled (fwRelease : Nat) : Bool := decide (fwRelease ≤ Config.fwLimit)

/-- The code is in the fixed table (R32, R165). -/
def knownCode (code : Byte) : Bool :=
  code == Config.codeHum || code == Config.codeTemp || code == Config.codeCo2

end Sys2Proof.Machine
end

