-- ==== Sys2Proof/WellFormed.lean ====
section
/-! DEFINITION. Which terms of Instr stand for an operation the block can be at: the preconditions of the rows CLS.UNK and DBGTAP. -/

namespace Sys2Proof

/-- CLS.UNK is taken on a frame that passed both checks and whose code is in no row before it (R77 row 6, R164).  A tap has a
decoded frame only when step 4 was reached, so after eight bytes (R183).  Every other term is well formed. -/
def Instr.wellFormed (i : Instr) : Bool :=
  match i with
  | .configKey _ => true
  | .configDebug _ => true
  | .configTimeout _ => true
  | .openSession _ => true
  | .closeSession => true
  | .readOne _ => true
  | .recv _ => true
  | .iochk _ => true
  | .lenchk _ => true
  | .decsel _ => true
  | .perm _ => true
  | .xork _ => true
  | .rotr3 _ => true
  | .unmask _ => true
  | .decrypt _ => true
  | .markchk _ => true
  | .sumchk _ => true
  | .value _ _ => true
  | .dispatch _ => true
  | .clsHum _ _ => true
  | .clsTemp _ _ => true
  | .clsCo2 _ _ => true
  | .clsUnk f => Machine.markOk f && Machine.sumOk f && !Machine.knownCode (f.get 0)
  | .dbgtap bytes f _ => f.isNone || Machine.lenOk bytes.length

end Sys2Proof
end

