-- ==== Sys2Proof/Decode.lean ====
section
/-! DEFINITION. The frame decoder of R77 and R81, the encoder beside it, and the table's match and mask words (spec/opcode_table.json). -/

namespace Sys2Proof

open Sys2Proof.Machine

/-- R77, read from the top: the operation that a decoded frame selects. -/
def decodeFrame (f : Frame) : Instr :=
  if markOk f = false then .markchk f
  else if sumOk f = false then .sumchk f
  else if f.get 0 = Config.codeHum then .clsHum (u16 (f.get 1) (f.get 2)) f.pad
  else if f.get 0 = Config.codeTemp then .clsTemp (u16 (f.get 1) (f.get 2)) f.pad
  else if f.get 0 = Config.codeCo2 then .clsCo2 (u16 (f.get 1) (f.get 2)) f.pad
  else .clsUnk f

/-- The decoder on bytes: eight bytes decode (R78), any other count is rejected by name (R79). -/
def decode (bytes : List Byte) : Except DecodeError Instr :=
  if bytes.length = Config.frameLen then .ok (decodeFrame (Frame.ofBytes bytes))
  else .error (.wrongLength bytes.length)

/-- Format DF (R72): the frame with a given code, value and pad, its checksum and marker right. -/
def frameOf (code : Byte) (v : BitVec 16) (pad : Pad) : Frame :=
  let hi := v.extractLsb' 8 8
  let lo := v.extractLsb' 0 8
  ⟨code, hi, lo, add8 (add8 code hi) lo, Config.marker, pad.b5, pad.b6, pad.b7⟩

/-- The frame an operation is selected by, where frame bits select it (R76, R77).  A caller's command and a stage have no
bit encoding (R76), nor has a check that passes: the rows below it decide. -/
def encode (i : Instr) : Option Frame :=
  match i with
  | .configKey _ => none
  | .configDebug _ => none
  | .configTimeout _ => none
  | .openSession _ => none
  | .closeSession => none
  | .readOne _ => none
  | .recv _ => none
  | .iochk _ => none
  | .lenchk _ => none
  | .decsel _ => none
  | .perm _ => none
  | .xork _ => none
  | .rotr3 _ => none
  | .unmask _ => none
  | .decrypt _ => none
  | .markchk f => if markOk f then none else some f
  | .sumchk f => if markOk f && !sumOk f then some f else none
  | .value _ _ => none
  | .dispatch _ => none
  | .clsHum v pad => some (frameOf Config.codeHum v pad)
  | .clsTemp v pad => some (frameOf Config.codeTemp v pad)
  | .clsCo2 v pad => some (frameOf Config.codeCo2 v pad)
  | .clsUnk f => some f
  | .dbgtap _ _ _ => none

/-- A row's `mask` in spec/opcode_table.json, over W(F). -/
def tableMask (i : Instr) : BitVec 64 :=
  match i with
  | .clsHum _ _ => 0xFF000000FF000000#64
  | .clsTemp _ _ => 0xFF000000FF000000#64
  | .clsCo2 _ _ => 0xFF000000FF000000#64
  | .clsUnk _ => 0x00000000FF000000#64
  | .configKey _ | .configDebug _ | .configTimeout _ | .openSession _ | .closeSession | .readOne _ => 0
  | .recv _ | .iochk _ | .lenchk _ | .decsel _ | .perm _ | .xork _ | .rotr3 _ | .unmask _ | .decrypt _ => 0
  | .markchk _ | .sumchk _ | .value _ _ | .dispatch _ | .dbgtap _ _ _ => 0

/-- A row's `match` in spec/opcode_table.json, over W(F). -/
def tableMatch (i : Instr) : BitVec 64 :=
  match i with
  | .clsHum _ _ => 0x410000000D000000#64
  | .clsTemp _ _ => 0x420000000D000000#64
  | .clsCo2 _ _ => 0x500000000D000000#64
  | .clsUnk _ => 0x000000000D000000#64
  | .configKey _ | .configDebug _ | .configTimeout _ | .openSession _ | .closeSession | .readOne _ => 0
  | .recv _ | .iochk _ | .lenchk _ | .decsel _ | .perm _ | .xork _ | .rotr3 _ | .unmask _ | .decrypt _ => 0
  | .markchk _ | .sumchk _ | .value _ _ | .dispatch _ | .dbgtap _ _ _ => 0

/-- The eight bytes of a table word: the table numbers the bits of W(F), byte 0 in bits 63:56 (R13, R81), and every bit above
`nbits` is 0. -/
def tableWordBytes (nbits w : Nat) : List Byte :=
  (Frame.ofWord (BitVec.ofNat 64 (w % 2 ^ nbits))).toBytes

/-- The instruction the decoder reads from a table word. -/
def decodeTableWord (nbits w : Nat) : Option Instr :=
  match decode (tableWordBytes nbits w) with
  | .ok i => some i
  | .error _ => none

end Sys2Proof
end

