-- ==== Sys2Proof/Machine/State.lean ====
section
/-! DEFINITION. The state of the machine as plain data, the reasons a step can stop, and the state after reset. -/

namespace Sys2Proof.Machine

open Sys2Proof

/-- PHASE (R21): no session, a session that can be read, a session whose sequence has ended. -/
inductive Phase where
  | closed
  | opened
  | ended
deriving DecidableEq, Repr

/-- TIMEOUT (R24): a bound of n milliseconds, or the transport's own blocking behaviour. -/
inductive Timeout where
  | ms (n : Nat)
  | block
deriving DecidableEq, Repr

/-- The commands as the admission table of R125 groups them: the three CONFIG commands have one row. -/
inductive Command where
  | config
  | openSession
  | read
  | closeSession
deriving DecidableEq, Repr

/-- The classification DISPATCH selects (R165). -/
inductive Classification where
  | hum
  | temp
  | co2
  | unk
deriving DecidableEq, Repr

/-- The working values of one read cycle (R27), the conditions of R29, what DISPATCH selected and the outcome the cycle
yielded.  The spec does not count them as registers (D4): they exist inside a cycle only, so each may be absent. -/
structure Cycle where
  n : Option Nat
  raw : Option Frame
  p : Option Frame
  x : Option Frame
  r : Option Frame
  d : Option Frame
  f : Option Frame
  sum : Option Byte
  v : Option (BitVec 16)
  ioOk : Option Bool
  lenOk : Option Bool
  markOk : Option Bool
  sumOk : Option Bool
  selected : Option Classification
  outcome : Option ReadOutcome
deriving DecidableEq, Repr

/-- No cycle: every working value is absent (R34). -/
def Cycle.empty : Cycle :=
  ⟨none, none, none, none, none, none, none, none, none, none, none, none, none, none, none⟩

/-- A call of a boundary function (R52 to R56) with what it passes and what it is answered. -/
inductive TransportCall where
  | transportOpen (vid pid : Nat) (granted : Bool)
  | releaseQuery (fwRelease : Nat)
  | featureWrite (report : List Byte) (answer : WriteAnswer)
  | transportRead (timeout : Timeout) (answer : ReadAnswer)
  | transportRelease
deriving DecidableEq, Repr

/-- What a command returns to the caller (R80, R184, R200). -/
inductive Response where
  | ok
  | invalidTimeout
  | transportError
  | outcome (o : ReadOutcome)
deriving DecidableEq, Repr

/-- A diagnostic: a log entry (R122) or what the debug tap surfaces (R183). -/
inductive Diagnostic where
  | featureWriteFailed
  | tap (n : Nat) (bytes : List Byte) (f : Option Frame) (o : ReadOutcome)
deriving DecidableEq, Repr

/-- What waits to be run: an operation with its operands, or the bytes of a decoded frame at the frame decoder (R81). -/
inductive Request where
  | operation (i : Instr)
  | frame (bytes : List Byte)
deriving DecidableEq, Repr

/-- The state.  The five session registers of R20 come first; `cycle` holds the working values of R27.  The other four are the
model's record of the block's boundary: what waits to be run, what the caller got back, the transport's calls and the
diagnostics, each list oldest first. -/
structure State where
  phase : Phase
  key : Key
  decEn : Option Bool
  timeout : Timeout
  debug : Bool
  cycle : Cycle
  pending : List Request
  toCaller : List Response
  wire : List TransportCall
  diag : List Diagnostic
deriving DecidableEq, Repr

/-- Why the machine stops for good. -/
inductive Fault where
  /-- READ and RECV, when the transport never answers the read: the READ never returns (R211, R250, I14).  Safe: nothing is
  proved of what comes after. -/
  | transportNeverAnswers
deriving DecidableEq, Repr

/-- Why there is no step. -/
inductive Refusal where
  /-- An arm of exec that has no meaning yet.  Safe.  No arm uses it. -/
  | notModelled (mnemonic : String)
  /-- The commands, and the stages RECV and IOCHK, in a phase that does not admit them (R125: refused, no step).  Safe. -/
  | notAdmitted (c : Command) (p : Phase)
  /-- READ and DECSEL, where DEC_EN holds no value (R23: no value while CLOSED, and nothing admitted then reads it).  Safe. -/
  | decEnHasNoValue
  /-- step, on a term that is no operation the block can be at (Instr.wellFormed).  Safe. -/
  | illFormed
  /-- step, on bytes that are no decoded frame (R79).  Safe. -/
  | undecodable (e : DecodeError)
deriving DecidableEq, Repr

/-- What an operation answers. -/
abbrev Result := Host.Outcome State Fault Refusal

/-- The state after reset (R34, R230). -/
def State.reset : State where
  phase := .closed
  key := Config.keyDefault
  decEn := none
  timeout := .ms Config.timeoutDefaultMs
  debug := Config.debugDefault
  cycle := Cycle.empty
  pending := []
  toCaller := []
  wire := []
  diag := []

end Sys2Proof.Machine
end

