-- ==== Sys2Proof/Machine/Operands.lean ====
section
/-! DEFINITION. The operand forms: the value V (R75), the timeout setting (R121), the feature report (R73), and the real numbers
that V stands for (R14, R166). -/

namespace Sys2Proof.Machine

open Sys2Proof

/-- V of a decoded frame (R75, R160). -/
def valueOf (f : Frame) : BitVec 16 := u16 (f.get 1) (f.get 2)

/-- A duration that is not negative, expressed in whole milliseconds (R121).  One with a fraction of a millisecond becomes one of the
two whole numbers beside it; which of the two is free. -/
def wholeMs (d : Rat) : Nat :=
  d.num.toNat / d.den + if d.den ≠ 1 ∧ Config.roundsUp d = true then 1 else 0

/-- What CONFIG.TIMEOUT writes (R121); none where the setting is not representable. -/
def timeoutOf (t : TimeoutSetting) : Option Timeout :=
  match t with
  | .none => some .block
  | .duration d =>
    if d.num < 0 ∨ Config.timeoutMaxMs < wholeMs d then none else some (.ms (wholeMs d))

/-- The nine bytes of format FEAT (R73, R123). -/
def featureReport (k : Key) : List Byte := 0x00#8 :: k.toBytes

/-- h = V / 100, the exact rational of CLS.HUM (R161). -/
def humidityOf (v : BitVec 16) : Rat := (v.toNat : Rat) / 100

/-- t = V / 16 - 273.15, the exact rational of CLS.TEMP (R162). -/
def temperatureOf (v : BitVec 16) : Rat := (v.toNat : Rat) / 16 - 27315 / 100

/-- The number an event carries, exact; the soft failures carry none (R168). -/
def eventNumber (e : Event) : Option Rat :=
  match e with
  | .ambientTemperature v => some (temperatureOf v)
  | .relativeConcentration v => some (v.toNat : Rat)
  | .humidity v => some (humidityOf v)
  | .unexpectedData _ => none
  | .wrongPacket => none
  | .checksumError => none
  | .uninitializedData => none
  | .unknownCode _ => none

end Sys2Proof.Machine
end

