-- ==== Sys2Proof/Machine/Ops.lean ====
section
/-! DEFINITION. The named operations over the registers and the boundary; admission by phase (R125); yielding an outcome and
returning it, which stand here for taking an exception and returning from one (R15, R207, R208). -/

namespace Sys2Proof.Machine

open Sys2Proof

def State.setPhase (s : State) (p : Phase) : State := { s with phase := p }

def State.setKey (s : State) (k : Key) : State := { s with key := k }

def State.setDecEn (s : State) (b : Option Bool) : State := { s with decEn := b }

def State.setTimeout (s : State) (t : Timeout) : State := { s with timeout := t }

def State.setDebug (s : State) (d : Bool) : State := { s with debug := d }

def State.setCycle (s : State) (c : Cycle) : State := { s with cycle := c }

def State.setPending (s : State) (q : List Request) : State := { s with pending := q }

/-- A command's return value, handed to the caller (R185, R200). -/
def State.respond (s : State) (r : Response) : State := { s with toCaller := s.toCaller ++ [r] }

/-- One call of a boundary function, in program order (R63). -/
def State.call (s : State) (c : TransportCall) : State := { s with wire := s.wire ++ [c] }

/-- `log(...)` (R15): no register and no outcome depends on it. -/
def State.note (s : State) (d : Diagnostic) : State := { s with diag := s.diag ++ [d] }

/-- The transport handle exists exactly while PHASE is OPEN or ENDED (R26). -/
def State.handleHeld (s : State) : Bool := s.phase != .closed

/-- The admission table of R125. -/
def admits (c : Command) (p : Phase) : Bool :=
  match c, p with
  | .config, .closed => true
  | .config, .opened => false
  | .config, .ended => false
  | .openSession, .closed => true
  | .openSession, .opened => false
  | .openSession, .ended => false
  | .read, .closed => false
  | .read, .opened => true
  | .read, .ended => false
  | .closeSession, .closed => false
  | .closeSession, .opened => true
  | .closeSession, .ended => true

/-- A command that is not admitted has no step (R125). -/
def ifAdmitted (c : Command) (s : State) (r : Result) : Result :=
  if admits c s.phase then r else .refused (.notAdmitted c s.phase)

/-- `yield` (R15): the outcome of the cycle.  Nothing is saved and no register changes (R207). -/
def State.yield (s : State) (o : ReadOutcome) : State :=
  s.setCycle { s.cycle with outcome := some o }

/-- The end of a READ: its one outcome goes to the caller, and no working value is left (R27, R185, R246). -/
def State.returnOutcome (s : State) (o : ReadOutcome) : State :=
  (s.setCycle Cycle.empty).respond (.outcome o)

/-- The debug tap (R183): when DEBUG = 1, on every outcome except NONE. -/
def State.tap (s : State) (bytes : List Byte) (f : Option Frame) (o : ReadOutcome) : State :=
  if s.debug && o != .endOfSequence then s.note (.tap bytes.length bytes f o) else s

/-- CLOSE's writes (R126): every register at its reset value, no working value. -/
def State.resetRegisters (s : State) : State :=
  { s with
    phase := .closed
    key := Config.keyDefault
    decEn := none
    timeout := .ms Config.timeoutDefaultMs
    debug := Config.debugDefault
    cycle := Cycle.empty }

/-- Run `k` on the next state; a stop stays a stop. -/
def andThen (r : Result) (k : State → Result) : Result :=
  match r with
  | .next s => k s
  | .fault e => .fault e
  | .refused e => .refused e

end Sys2Proof.Machine
end

