-- ==== Sys2Proof/Machine/Classify.lean ====
section
/-! DEFINITION. The measurement classifier: VALUE, DISPATCH and the four classifications (R160 to R165). -/

namespace Sys2Proof.Machine

open Sys2Proof

/-- The fixed code table (R165): all eight bits of the code are compared. -/
def classOf (code : Byte) : Classification :=
  if code = Config.codeHum then .hum
  else if code = Config.codeTemp then .temp
  else if code = Config.codeCo2 then .co2
  else .unk

/-- The event of a CO2 frame (R163). -/
def co2Event (v : BitVec 16) : Event :=
  if aboveCo2Limit v then .uninitializedData else .relativeConcentration v

/-- VALUE (R160). -/
def execValue (hi lo : Byte) (s : State) : Result :=
  .next (s.setCycle { s.cycle with v := some (u16 hi lo) })

/-- DISPATCH (R165). -/
def execDispatch (code : Byte) (s : State) : Result :=
  .next (s.setCycle { s.cycle with selected := some (classOf code) })

/-- CLS.HUM (R161). -/
def execClsHum (v : BitVec 16) (s : State) : Result :=
  .next (s.yield (.event (.humidity v)))

/-- CLS.TEMP (R162). -/
def execClsTemp (v : BitVec 16) (s : State) : Result :=
  .next (s.yield (.event (.ambientTemperature v)))

/-- CLS.CO2 (R163). -/
def execClsCo2 (v : BitVec 16) (s : State) : Result :=
  .next (s.yield (.event (co2Event v)))

/-- CLS.UNK (R164). -/
def execClsUnk (f : Frame) (s : State) : Result :=
  .next (s.yield (.event (.unknownCode f)))

end Sys2Proof.Machine
end

