-- ==== Sys2Proof/Machine/Decryptor.lean ====
section
/-! DEFINITION. The Frame Decryptor: PERM, XORK, ROTR3, UNMASK and DECRYPT (R100 to R104), and the inverse of R107. -/

namespace Sys2Proof.Machine

open Sys2Proof

/-- The permutation table (R30): the transpositions (0,2), (1,4), (3,7), (5,6). -/
def permIdx (i : Fin 8) : Fin 8 :=
  match i with
  | 0 => 2
  | 1 => 4
  | 2 => 0
  | 3 => 7
  | 4 => 1
  | 5 => 6
  | 6 => 5
  | 7 => 3

/-- `maskByte[i]` (R31): the ASCII code of character i of MASK_TEXT. -/
def maskByte (i : Fin 8) : Byte := BitVec.ofNat 8 (Config.maskText.getD i.val ' ').toNat

/-- MASK[i] (R31): the nibble-swapped text, not the text (R241). -/
def maskAt (i : Fin 8) : Byte := swap4 (maskByte i)

/-- P of R100. -/
def permFrame (raw : Frame) : Frame := Frame.ofFn fun i => raw.get (permIdx i)

/-- X of R101. -/
def xorFrame (p : Frame) (k : Key) : Frame := Frame.ofFn fun i => p.get i ^^^ k.get i

/-- R of R102: every byte from the values before the step (R238). -/
def rotrFrame (x : Frame) : Frame := Frame.ofFn fun i => shl8 (x.get (prevIdx i)) 5 ||| shr8 (x.get i) 3

/-- D of R103: eight subtractions, no borrow between bytes (R240). -/
def unmaskFrame (r : Frame) : Frame := Frame.ofFn fun i => sub8 (r.get i) (maskAt i)

/-- DECRYPT(RAW, KEY) of R104. -/
def decryptFrame (raw : Frame) (k : Key) : Frame :=
  unmaskFrame (rotrFrame (xorFrame (permFrame raw) k))

/-- ENCRYPT(D, KEY) of R107.  The block never computes it. -/
def encryptFrame (d : Frame) (k : Key) : Frame :=
  let r := Frame.ofFn fun i => add8 (d.get i) (maskAt i)
  let x := Frame.ofFn fun i => shl8 (r.get i) 3 ||| shr8 (r.get (nextIdx i)) 5
  permFrame (xorFrame x k)

/-- The decryptor run on RAW with the register KEY: its four results become the working values P, X, R and D. -/
def State.runDecryptor (s : State) (raw : Frame) : State :=
  let p := permFrame raw
  let x := xorFrame p s.key
  let r := rotrFrame x
  s.setCycle { s.cycle with p := some p, x := some x, r := some r, d := some (unmaskFrame r) }

/-- PERM (R100). -/
def execPerm (raw : Frame) (s : State) : Result :=
  .next (s.setCycle { s.cycle with p := some (permFrame raw) })

/-- XORK (R101). -/
def execXork (p : Frame) (s : State) : Result :=
  .next (s.setCycle { s.cycle with x := some (xorFrame p s.key) })

/-- ROTR3 (R102). -/
def execRotr3 (x : Frame) (s : State) : Result :=
  .next (s.setCycle { s.cycle with r := some (rotrFrame x) })

/-- UNMASK (R103). -/
def execUnmask (r : Frame) (s : State) : Result :=
  .next (s.setCycle { s.cycle with d := some (unmaskFrame r) })

/-- DECRYPT (R104). -/
def execDecrypt (raw : Frame) (s : State) : Result :=
  .next (s.runDecryptor raw)

end Sys2Proof.Machine
end

