-- ==== Sys2Proof/Machine/Validate.lean ====
section
/-! DEFINITION. The stages from the transport's answer to a valid frame: RECV, IOCHK, LENCHK, DECSEL, MARKCHK, SUMCHK (R140 to R145). -/

namespace Sys2Proof.Machine

open Sys2Proof

/-- RECV's one call and its working values (R140): RAW is defined only when N = 8.  A cycle starts afresh (R246). -/
def State.receive (s : State) (a : ReadAnswer) : State :=
  (s.call (.transportRead s.timeout a)).setCycle
    { Cycle.empty with
      n := if ioOk a then some (countOf a) else none
      raw := if ioOk a && lenOk (countOf a) then some (Frame.ofBytes (bytesOf a)) else none }

/-- RECV (R140).  It needs the handle, so READ's admission; a transport that never answers never returns (R211). -/
def execRecv (rx : ReadReply) (s : State) : Result :=
  ifAdmitted .read s
    (match rx with
     | .never => .fault .transportNeverAnswers
     | .answered a => .next (s.receive a))

/-- IOCHK (R141): the one condition that ends the sequence.  PHASE leaves OPEN only (R21), so READ's admission. -/
def execIochk (a : ReadAnswer) (s : State) : Result :=
  ifAdmitted .read s
    (let t := s.setCycle { s.cycle with ioOk := some (ioOk a) }
     if ioOk a then .next t else .next ((t.setPhase .ended).yield .endOfSequence))

/-- LENCHK (R142). -/
def execLenchk (n : Nat) (s : State) : Result :=
  let t := s.setCycle { s.cycle with lenOk := some (lenOk n) }
  if lenOk n then .next t else .next (t.yield (.event .wrongPacket))

/-- DECSEL with DEC_EN = `b` (R143): the decryptor's output, or RAW itself with nothing of the decryptor run (R242). -/
def State.selectFrame (s : State) (b : Bool) (raw : Frame) : State :=
  if b then
    let t := s.runDecryptor raw
    t.setCycle { t.cycle with f := some (decryptFrame raw s.key) }
  else s.setCycle { s.cycle with f := some raw }

/-- DECSEL (R143).  DEC_EN has no value before OPEN (R23), and then there is nothing to select by. -/
def execDecsel (raw : Frame) (s : State) : Result :=
  match s.decEn with
  | none => .refused .decEnHasNoValue
  | some b => .next (s.selectFrame b raw)

/-- MARKCHK (R144). -/
def execMarkchk (f : Frame) (s : State) : Result :=
  let t := s.setCycle { s.cycle with markOk := some (markOk f) }
  if markOk f then .next t else .next (t.yield (.event (.unexpectedData f)))

/-- SUMCHK (R145). -/
def execSumchk (f : Frame) (s : State) : Result :=
  let t := s.setCycle { s.cycle with sum := some (checksum f), sumOk := some (sumOk f) }
  if sumOk f then .next t else .next (t.yield (.event .checksumError))

end Sys2Proof.Machine
end

