-- ==== Sys2Proof/Machine/ReadCycle.lean ====
section
/-! DEFINITION. READ as one atomic step, and DBGTAP (R180 to R183). -/

namespace Sys2Proof.Machine

open Sys2Proof

/-- The event of a decoded frame: steps 5 to 7 of R180 (R77, R206). -/
def frameEvent (f : Frame) : Event :=
  if markOk f = false then .unexpectedData f
  else if sumOk f = false then .checksumError
  else
    match classOf (f.get 0) with
    | .hum => .humidity (valueOf f)
    | .temp => .ambientTemperature (valueOf f)
    | .co2 => co2Event (valueOf f)
    | .unk => .unknownCode f

/-- F of R143. -/
def frameSeen (k : Key) (decEn : Bool) (raw : Frame) : Frame :=
  if decEn then decryptFrame raw k else raw

/-- `outcome(KEY, DEC_EN, a)` of R181: a total function. -/
def readOutcome (k : Key) (decEn : Bool) (a : ReadAnswer) : ReadOutcome :=
  if ioOk a = false then .endOfSequence
  else if lenOk (countOf a) = false then .event .wrongPacket
  else .event (frameEvent (frameSeen k decEn (Frame.ofBytes (bytesOf a))))

/-- One cycle's end: the outcome to the caller, then the tap (R180 step 8). -/
def State.finishRead (s : State) (bytes : List Byte) (f : Option Frame) (o : ReadOutcome) : State :=
  (s.returnOutcome o).tap bytes f o

/-- R180 from the transport's answer on; `s` has made the call. -/
def State.processAnswer (s : State) (a : ReadAnswer) : Result :=
  if ioOk a = false then .next ((s.setPhase .ended).finishRead [] none .endOfSequence)
  else if lenOk (countOf a) = false then .next (s.finishRead (bytesOf a) none (.event .wrongPacket))
  else
    match s.decEn with
    | none => .refused .decEnHasNoValue
    | some b =>
      let f := frameSeen s.key b (Frame.ofBytes (bytesOf a))
      .next (s.finishRead (bytesOf a) (some f) (.event (frameEvent f)))

/-- READ (R180). -/
def execRead (rx : ReadReply) (s : State) : Result :=
  ifAdmitted .read s
    (match rx with
     | .never => .fault .transportNeverAnswers
     | .answered a => (s.call (.transportRead s.timeout a)).processAnswer a)

/-- DBGTAP (R183): no register, no outcome and no transport call. -/
def execDbgtap (bytes : List Byte) (f : Option Frame) (o : ReadOutcome) (s : State) : Result :=
  .next (s.tap bytes f o)

end Sys2Proof.Machine
end

