-- ==== Sys2Proof/Machine/Session.lean ====
section
/-! DEFINITION. The session commands: CONFIG.KEY, CONFIG.DEBUG, CONFIG.TIMEOUT, OPEN, CLOSE (R120 to R126). -/

namespace Sys2Proof.Machine

open Sys2Proof

/-- CONFIG.KEY (R120). -/
def execConfigKey (k : Key) (s : State) : Result :=
  ifAdmitted .config s (.next ((s.setKey k).respond .ok))

/-- CONFIG.DEBUG (R120). -/
def execConfigDebug (d : Bool) (s : State) : Result :=
  ifAdmitted .config s (.next ((s.setDebug d).respond .ok))

/-- CONFIG.TIMEOUT (R121): a setting that is not representable is answered with InvalidTimeout and changes no register. -/
def execConfigTimeout (t : TimeoutSetting) (s : State) : Result :=
  ifAdmitted .config s
    (match timeoutOf t with
     | some τ => .next ((s.setTimeout τ).respond .ok)
     | none => .next (s.respond .invalidTimeout))

/-- The calls and writes of an OPEN that gets a handle (R122, R123), in the order listed (D20). -/
def State.openWith (s : State) (fwRelease : Nat) (feat : WriteAnswer) : State :=
  let s1 := s.call (.transportOpen Config.vendorId Config.productId true)
  let s2 := (s1.call (.releaseQuery fwRelease)).setDecEn (some (decodeEnabled fwRelease))
  let s3 := s2.call (.featureWrite (featureReport s2.key) feat)
  let s4 := if feat = .err then s3.note .featureWriteFailed else s3
  (s4.setPhase .opened).respond .ok

/-- OPEN (R122 to R124): where no handle is granted no register changes and nothing else is called. -/
def execOpen (reply : OpenReply) (s : State) : Result :=
  ifAdmitted .openSession s
    (match reply with
     | .err => .next ((s.call (.transportOpen Config.vendorId Config.productId false)).respond .transportError)
     | .ok fwRelease feat => .next (s.openWith fwRelease feat))

/-- CLOSE (R126). -/
def execClose (s : State) : Result :=
  ifAdmitted .closeSession s (.next ((s.call .transportRelease).resetRegisters.respond .ok))

end Sys2Proof.Machine
end

