-- ==== Sys2Proof/Machine/Dispatch.lean ====
section
/-! DEFINITION. exec: one arm per constructor of Instr, each one call of its meaning. -/

namespace Sys2Proof.Machine

open Sys2Proof

def exec (i : Instr) (s : State) : Host.Outcome State Fault Refusal :=
  match i with
  -- the caller's commands
  | .configKey k => Sys2Proof.Machine.execConfigKey k s
  | .configDebug d => Sys2Proof.Machine.execConfigDebug d s
  | .configTimeout t => Sys2Proof.Machine.execConfigTimeout t s
  | .openSession r => Sys2Proof.Machine.execOpen r s
  | .closeSession => Sys2Proof.Machine.execClose s
  | .readOne rx => Sys2Proof.Machine.execRead rx s
  -- the stages of a read cycle
  | .recv rx => Sys2Proof.Machine.execRecv rx s
  | .iochk a => Sys2Proof.Machine.execIochk a s
  | .lenchk n => Sys2Proof.Machine.execLenchk n s
  | .decsel raw => Sys2Proof.Machine.execDecsel raw s
  | .perm raw => Sys2Proof.Machine.execPerm raw s
  | .xork p => Sys2Proof.Machine.execXork p s
  | .rotr3 x => Sys2Proof.Machine.execRotr3 x s
  | .unmask r => Sys2Proof.Machine.execUnmask r s
  | .decrypt raw => Sys2Proof.Machine.execDecrypt raw s
  | .markchk f => Sys2Proof.Machine.execMarkchk f s
  | .sumchk f => Sys2Proof.Machine.execSumchk f s
  | .value hi lo => Sys2Proof.Machine.execValue hi lo s
  | .dispatch code => Sys2Proof.Machine.execDispatch code s
  -- the operations selected by frame bits
  | .clsHum v _ => Sys2Proof.Machine.execClsHum v s
  | .clsTemp v _ => Sys2Proof.Machine.execClsTemp v s
  | .clsCo2 v _ => Sys2Proof.Machine.execClsCo2 v s
  | .clsUnk f => Sys2Proof.Machine.execClsUnk f s
  | .dbgtap bytes f o => Sys2Proof.Machine.execDbgtap bytes f o s

end Sys2Proof.Machine
end

