-- ==== Sys2Proof/Machine/Step.lean ====
section
/-! DEFINITION. One step: take the oldest request and run it. -/

namespace Sys2Proof.Machine

open Sys2Proof

/-- With nothing pending the block waits for a command (R230): the state stays.  A pending operation runs if it is well formed;
the bytes of a decoded frame go through the decoder first (R81). -/
def step (s : State) : Host.Outcome State Fault Refusal :=
  match s.pending with
  | [] => .next s
  | .operation i :: rest => if i.wellFormed then exec i (s.setPending rest) else .refused .illFormed
  | .frame bytes :: rest =>
    match decode bytes with
    | .ok i => exec i (s.setPending rest)
    | .error e => .refused (.undecodable e)

/-- The table word put first among the pending requests, as the bytes of a decoded frame. -/
def State.withFetchWord (s : State) (nbits w : Nat) : State :=
  s.setPending (.frame (tableWordBytes nbits w) :: s.pending)

end Sys2Proof.Machine
end

