-- ==== Sys2Proof/Machine/Export.lean ====
section
/-! DEFINITION. Two mappings of an event that the spec records and no operation uses: the tags of R74 and the export point of R186. -/

namespace Sys2Proof.Machine

open Sys2Proof

/-- The spec's own labels for the event kinds (R74, D8). -/
def eventTag (e : Event) : Nat :=
  match e with
  | .ambientTemperature _ => 0
  | .relativeConcentration _ => 1
  | .humidity _ => 2
  | .unexpectedData _ => 3
  | .wrongPacket => 4
  | .checksumError => 5
  | .uninitializedData => 6
  | .unknownCode _ => 7

/-- One point of the metrics sink (R186). -/
structure ExportPoint where
  measurement : String
  field : String
  number : Rat
deriving DecidableEq, Repr

/-- The point an outcome is forwarded as (R186); soft failures and NONE are not forwarded. -/
def exportPoint (o : ReadOutcome) : Option ExportPoint :=
  match o with
  | .endOfSequence => none
  | .event (.ambientTemperature v) => some ⟨"co2monitor", "ambient_temperature", temperatureOf v⟩
  | .event (.relativeConcentration v) => some ⟨"co2monitor", "relative_concentration", (v.toNat : Rat)⟩
  | .event (.humidity v) => some ⟨"co2monitor", "humidity", humidityOf v⟩
  | .event (.unexpectedData _) => none
  | .event .wrongPacket => none
  | .event .checksumError => none
  | .event .uninitializedData => none
  | .event (.unknownCode _) => none

/-- The machine number that an event carries, for a rounding function `fl` into the open format FLOAT_FMT (R8, R14, R166). -/
def floatPayload {α : Type} (fl : Rat → α) (e : Event) : Option α :=
  match e with
  | .ambientTemperature v => some (fl (temperatureOf v))
  | .humidity v => some (fl (humidityOf v))
  | .relativeConcentration _ => none
  | .unexpectedData _ => none
  | .wrongPacket => none
  | .checksumError => none
  | .uninitializedData => none
  | .unknownCode _ => none

end Sys2Proof.Machine
end

