-- ==== Sys2Proof/Machine/Stages.lean ====
section
/-! DEFINITION. A read cycle stage by stage: the stage operations run one after another in the order of R180.  READ does not use
it; a statement says that the two agree. -/

namespace Sys2Proof.Machine

open Sys2Proof

/-- After a yield: DBGTAP, then the outcome goes to the caller; before one, go on with the next stage. -/
def endOr (bytes : List Byte) (f : Option Frame) (s : State) (k : State → Result) : Result :=
  match s.cycle.outcome with
  | some o => andThen (exec (.dbgtap bytes f o) s) fun t => .next (t.returnOutcome o)
  | none => k s

/-- The classification that DISPATCH selected, on the frame F. -/
def classInstr (c : Classification) (v : BitVec 16) (f : Frame) : Instr :=
  match c with
  | .hum => .clsHum v f.pad
  | .temp => .clsTemp v f.pad
  | .co2 => .clsCo2 v f.pad
  | .unk => .clsUnk f

/-- Steps 5 to 8 of R180 as operations. -/
def checkByStages (bytes : List Byte) (f : Frame) (s : State) : Result :=
  andThen (exec (.markchk f) s) fun s => endOr bytes (some f) s fun s =>
  andThen (exec (.sumchk f) s) fun s => endOr bytes (some f) s fun s =>
  andThen (exec (.value (f.get 1) (f.get 2)) s) fun s =>
  andThen (exec (.dispatch (f.get 0)) s) fun s =>
  match s.cycle.selected, s.cycle.v with
  | some c, some v => andThen (exec (classInstr c v f) s) fun s => endOr bytes (some f) s .next
  | _, _ => .next s

/-- R180 as operations: each stage runs on the working values the stages before it left. -/
def readByStages (rx : ReadReply) (s : State) : Result :=
  andThen (exec (.recv rx) s) fun s =>
  match rx with
  | .never => .fault .transportNeverAnswers
  | .answered a =>
    andThen (exec (.iochk a) s) fun s => endOr [] none s fun s =>
    andThen (exec (.lenchk (countOf a)) s) fun s => endOr (bytesOf a) none s fun s =>
    match s.cycle.raw with
    | none => .next s
    | some raw =>
      andThen (exec (.decsel raw) s) fun s =>
      match s.cycle.f with
      | none => .next s
      | some f => checkByStages (bytesOf a) f s

end Sys2Proof.Machine
end

