-- ==== Sys2Proof/Safety.lean ====
section
/-! DEFINITION. What a safe state is: the registers' invariant, the order of the transport's calls, and the record of the session. -/

namespace Sys2Proof.Machine

open Sys2Proof

/-- The registers hold legal values together: DEC_EN has a value exactly while a session exists (R23, R26), and a bound in
TIMEOUT is one the transport's unit can hold (R24). -/
structure State.RegistersLegal (s : State) : Prop where
  decEnIffSession : s.decEn = none ↔ s.phase = .closed
  timeoutFits : ∀ n, s.timeout = .ms n → n ≤ Config.timeoutMaxMs

/-- Where a session stands in its calls (R63). -/
inductive CallPhase where
  | idle
  | granted
  | queried
  | active
  | broken
deriving DecidableEq, Repr

/-- R63: TransportOpen, ReleaseQuery, FeatureWrite, then one TransportRead after another, then TransportRelease; any other call is
out of order.  A TransportOpen that grants no handle leaves no session. -/
def CallPhase.next (p : CallPhase) (c : TransportCall) : CallPhase :=
  match p, c with
  | .idle, .transportOpen _ _ true => .granted
  | .idle, .transportOpen _ _ false => .idle
  | .granted, .releaseQuery _ => .queried
  | .queried, .featureWrite _ _ => .active
  | .active, .transportRead _ _ => .active
  | .active, .transportRelease => .idle
  | _, _ => .broken

/-- Where a list of calls leaves a block that starts with no session. -/
def callPhase (calls : List TransportCall) : CallPhase := calls.foldl CallPhase.next .idle

/-- The calls made so far are whole sessions in order (R63), and a session is under way exactly while a handle exists (R26). -/
def State.CallsInOrder (s : State) : Prop :=
  callPhase s.wire = if s.phase = .closed then .idle else .active

/-- The calls of the session under way: a handle, one release query, one feature report that carries `k`, then only reads, each
with the bound `t` (R57, R122, R123, R140). -/
def SessionCalls (k : Key) (t : Timeout) (fw : Nat) (calls : List TransportCall) : Prop :=
  ∃ vid pid feat reads,
    calls = [.transportOpen vid pid true, .releaseQuery fw, .featureWrite (0x00#8 :: k.toBytes) feat] ++ reads ∧
    ∀ c ∈ reads, ∃ a, c = .transportRead t a

/-- While a session exists the device was offered the KEY that XORK uses (R231), DEC_EN is what the release number of this session
gives (R23), and every read was bounded by the TIMEOUT that is still there (R35). -/
def State.SessionOnRecord (s : State) : Prop :=
  s.phase ≠ .closed →
    ∃ earlier calls fw, s.wire = earlier ++ calls ∧ SessionCalls s.key s.timeout fw calls ∧
      s.decEn = some (decide (fw ≤ 256))

/-- The rows of format CMD in spec/opcode_table.json: the caller's commands. -/
def isCommand (i : Instr) : Bool :=
  match i with
  | .configKey _ | .configDebug _ | .configTimeout _ | .openSession _ | .closeSession | .readOne _ => true
  | .recv _ | .iochk _ | .lenchk _ | .decsel _ | .perm _ | .xork _ | .rotr3 _ | .unmask _ | .decrypt _ => false
  | .markchk _ | .sumchk _ | .value _ _ | .dispatch _ | .clsHum _ _ | .clsTemp _ _ | .clsCo2 _ _ | .clsUnk _ => false
  | .dbgtap _ _ _ => false

/-- The four registers that a session freezes (R35, R247). -/
def sameConfiguration (s t : State) : Prop :=
  t.key = s.key ∧ t.decEn = s.decEn ∧ t.timeout = s.timeout ∧ t.debug = s.debug

/-- All five registers (R20). -/
def sameRegisters (s t : State) : Prop := t.phase = s.phase ∧ sameConfiguration s t

/-- All that a READ returning the event `e` leaves: one call, one response, the tap's entry when DEBUG = 1, no working value
(R180, R207).  `f` is the frame F where step 4 was reached. -/
def State.afterEvent (s : State) (bytes : List Byte) (f : Option Frame) (e : Event) : State :=
  { s with
    cycle := Cycle.empty
    toCaller := s.toCaller ++ [.outcome (.event e)]
    wire := s.wire ++ [.transportRead s.timeout (.ok bytes)]
    diag := s.diag ++ (if s.debug then [.tap bytes.length bytes f (.event e)] else []) }

/-- The record of the boundary: what the caller got, the transport's calls, the diagnostics. -/
def sameRecord (s t : State) : Prop :=
  t.toCaller = s.toCaller ∧ t.wire = s.wire ∧ t.diag = s.diag

end Sys2Proof.Machine
end

