-- ==== Sys2Proof/Certificates/Slice0/Obligations.lean ====
section
/-! DEFINITION. The statements for the provers.  An equation `exec i s = .next { s with … }` gives the whole next state, so it is
the operation's effect and its frame at once. -/

open Sys2Proof Sys2Proof.Machine

/-! ### Reset, the step, the decoder -/

/-- R34: the registers right after reset.  DEC_EN has no value and no handle exists.  That reset is the state with no session is the
spec's own choice (D3, notes/assumptions/20.md).  That the working values are absent is the model's reading of "undefined outside a
read cycle" (notes/assumptions/2.md). -/
def Obligations.ResetLeavesDefaults : Prop :=
  State.reset.phase = .closed ∧ State.reset.key.toBytes = [0x00, 0x00, 0x00, 0x00, 0x00, 0x00, 0x00, 0x00] ∧
  State.reset.timeout = .ms 5000 ∧ State.reset.debug = false ∧ State.reset.decEn = none ∧
  State.reset.handleHeld = false ∧ State.reset.cycle = Cycle.empty

/-- The step takes the oldest request and is exec of it; with no request it waits; a term that is no operation and bytes that
are no frame are refused.  The list of requests is the model's own (notes/assumptions/1.md), and so is which terms are ill formed
(notes/assumptions/18.md). -/
def Obligations.StepRunsTheOldestRequest : Prop :=
  ∀ s : State,
    (s.pending = [] → step s = .next s) ∧
    (∀ i rest, s.pending = .operation i :: rest → i.wellFormed = true → step s = exec i { s with pending := rest }) ∧
    (∀ i rest, s.pending = .operation i :: rest → i.wellFormed = false → step s = .refused .illFormed) ∧
    (∀ bytes rest i, s.pending = .frame bytes :: rest → decode bytes = .ok i →
      step s = exec i { s with pending := rest }) ∧
    (∀ bytes rest e, s.pending = .frame bytes :: rest → decode bytes = .error e → step s = .refused (.undecodable e))

/-- Frames written out from R72 and R77, one for each row of R77: what they decode to. -/
def Obligations.WrittenFramesDecode : Prop :=
  decode [0x50, 0x01, 0xa1, 0xf2, 0x0c, 0x00, 0x00, 0x00] =
    .ok (.markchk ⟨0x50, 0x01, 0xa1, 0xf2, 0x0c, 0x00, 0x00, 0x00⟩) ∧
  decode [0x50, 0x01, 0xa1, 0xf3, 0x0d, 0x00, 0x00, 0x00] =
    .ok (.sumchk ⟨0x50, 0x01, 0xa1, 0xf3, 0x0d, 0x00, 0x00, 0x00⟩) ∧
  decode [0x41, 0x27, 0x10, 0x78, 0x0d, 0xde, 0xad, 0xbe] = .ok (.clsHum 0x2710 ⟨0xde, 0xad, 0xbe⟩) ∧
  decode [0x42, 0x10, 0x64, 0xb6, 0x0d, 0x00, 0x00, 0x00] = .ok (.clsTemp 0x1064 ⟨0x00, 0x00, 0x00⟩) ∧
  decode [0x50, 0x0b, 0xb8, 0x13, 0x0d, 0x00, 0x00, 0x00] = .ok (.clsCo2 0x0bb8 ⟨0x00, 0x00, 0x00⟩) ∧
  decode [0x6d, 0x0b, 0x2c, 0xa4, 0x0d, 0x11, 0x22, 0x33] =
    .ok (.clsUnk ⟨0x6d, 0x0b, 0x2c, 0xa4, 0x0d, 0x11, 0x22, 0x33⟩)

/-- R77: which operation a frame selects, by the rows' match and mask on W and the checksum, the first row that holds. -/
def Obligations.FrameSelectsByMatchAndMask : Prop :=
  ∀ f : Frame,
    let marker := f.word &&& 0x00000000FF000000#64 = 0x000000000D000000#64
    let sum := f.b0 + f.b1 + f.b2 = f.b3
    let row := fun m : BitVec 64 => f.word &&& 0xFF000000FF000000#64 = m
    (¬ marker → decodeFrame f = .markchk f) ∧
    (marker → ¬ sum → decodeFrame f = .sumchk f) ∧
    (sum → row 0x410000000D000000#64 → decodeFrame f = .clsHum (f.b1 ++ f.b2) ⟨f.b5, f.b6, f.b7⟩) ∧
    (sum → row 0x420000000D000000#64 → decodeFrame f = .clsTemp (f.b1 ++ f.b2) ⟨f.b5, f.b6, f.b7⟩) ∧
    (sum → row 0x500000000D000000#64 → decodeFrame f = .clsCo2 (f.b1 ++ f.b2) ⟨f.b5, f.b6, f.b7⟩) ∧
    (marker → sum → ¬ row 0x410000000D000000#64 → ¬ row 0x420000000D000000#64 → ¬ row 0x500000000D000000#64 →
      decodeFrame f = .clsUnk f)

/-- Decoding and encoding agree: an operation that frame bits select is read back from its frame with every operand, and every
eight bytes are the frame of the operation they decode to. -/
def Obligations.DecodeAndEncodeAgree : Prop :=
  (∀ (i : Instr) (f : Frame), i.wellFormed = true → encode i = some f → decode f.toBytes = .ok i) ∧
  (∀ (bytes : List Byte) (i : Instr), decode bytes = .ok i →
    i.wellFormed = true ∧ ∃ f, encode i = some f ∧ f.toBytes = bytes)

/-- R79: a frame has eight bytes.  Any other count is rejected with that count, and every eight bytes decode. -/
def Obligations.OnlyEightBytesDecode : Prop :=
  ∀ bytes : List Byte,
    (bytes.length ≠ 8 → decode bytes = .error (.wrongLength bytes.length)) ∧
    (bytes.length = 8 → ∃ i, decode bytes = .ok i ∧ i.wellFormed = true)

/-- The bits of a table word are the bits of W(F), and a step from any state with that word fetched runs what it decodes to.  That a
word is fetched by being put first among the requests is the model's choice (notes/assumptions/1.md): the spec has no fetch (R28). -/
def Obligations.TableWordIsTheFrameWord : Prop :=
  ∀ (f : Frame) (s : State),
    decodeTableWord 64 f.word.toNat = some (decodeFrame f) ∧
    step (s.withFetchWord 64 f.word.toNat) = exec (decodeFrame f) s

/-! ### The session commands -/

/-- R120: CONFIG.KEY and CONFIG.DEBUG while CLOSED.  Their refusal in any other phase is the admission table of R125, the spec's own
choice (its decision D11, notes/assumptions/11.md). -/
def Obligations.ConfigWritesKeyAndDebug : Prop :=
  ∀ (s : State) (k : Key) (d : Bool),
    (s.phase = .closed →
      exec (.configKey k) s = .next { s with key := k, toCaller := s.toCaller ++ [.ok] } ∧
      exec (.configDebug d) s = .next { s with debug := d, toCaller := s.toCaller ++ [.ok] }) ∧
    (s.phase ≠ .closed →
      exec (.configKey k) s = .refused (.notAdmitted .config s.phase) ∧
      exec (.configDebug d) s = .refused (.notAdmitted .config s.phase))

/-- R121: CONFIG.TIMEOUT with none, with a whole number of milliseconds, and with a negative duration.  TIMEOUT_MAX_MS is open.  That
InvalidTimeout leaves the block usable is the spec's decision D23 (notes/assumptions/9.md), and the refusal in any other phase is
R125 with its decision D11 (notes/assumptions/11.md). -/
def Obligations.ConfigTimeoutSetsBoundOrRejects : Prop :=
  ∀ s : State,
    (s.phase = .closed →
      exec (.configTimeout .none) s = .next { s with timeout := .block, toCaller := s.toCaller ++ [.ok] } ∧
      (∀ n : Nat, n ≤ Config.timeoutMaxMs →
        exec (.configTimeout (.duration n)) s = .next { s with timeout := .ms n, toCaller := s.toCaller ++ [.ok] }) ∧
      (∀ n : Nat, Config.timeoutMaxMs < n →
        exec (.configTimeout (.duration n)) s = .next { s with toCaller := s.toCaller ++ [.invalidTimeout] }) ∧
      (∀ d : Rat, d < 0 →
        exec (.configTimeout (.duration d)) s = .next { s with toCaller := s.toCaller ++ [.invalidTimeout] })) ∧
    (s.phase ≠ .closed → ∀ t, exec (.configTimeout t) s = .refused (.notAdmitted .config s.phase))

/-- The model's choice for a duration with a fraction of a millisecond (notes/assumptions/5.md): it completes as one of the two whole
numbers beside it, whichever of the two is free, and that number is set or rejected as R121 has it.  So a duration within
TIMEOUT_MAX_MS is always set, and one of TIMEOUT_MAX_MS + 1 or more is always answered with InvalidTimeout (I13). -/
def Obligations.FractionalTimeoutCompletes : Prop :=
  ∀ (s : State) (d : Rat), s.phase = .closed → 0 ≤ d → d.den ≠ 1 →
    (∃ n : Nat, (n = ⌊d⌋₊ ∨ n = ⌊d⌋₊ + 1) ∧
      exec (.configTimeout (.duration d)) s =
        if n ≤ Config.timeoutMaxMs then .next { s with timeout := .ms n, toCaller := s.toCaller ++ [.ok] }
        else .next { s with toCaller := s.toCaller ++ [.invalidTimeout] }) ∧
    (d ≤ Config.timeoutMaxMs → ∃ n : Nat, (n = ⌊d⌋₊ ∨ n = ⌊d⌋₊ + 1) ∧
      exec (.configTimeout (.duration d)) s = .next { s with timeout := .ms n, toCaller := s.toCaller ++ [.ok] }) ∧
    ((Config.timeoutMaxMs : Rat) + 1 ≤ d →
      exec (.configTimeout (.duration d)) s = .next { s with toCaller := s.toCaller ++ [.invalidTimeout] })

/-- Configured twice, the last value stays (R24, R120). -/
def Obligations.LastConfigurationWins : Prop :=
  ∀ s : State, s.phase = .closed →
    (∀ k k', andThen (exec (.configKey k) s) (exec (.configKey k')) =
      .next { s with key := k', toCaller := s.toCaller ++ [.ok, .ok] }) ∧
    (∀ d d', andThen (exec (.configDebug d) s) (exec (.configDebug d')) =
      .next { s with debug := d', toCaller := s.toCaller ++ [.ok, .ok] }) ∧
    (∀ m n : Nat, m ≤ Config.timeoutMaxMs → n ≤ Config.timeoutMaxMs →
      andThen (exec (.configTimeout (.duration m)) s) (exec (.configTimeout (.duration n))) =
        .next { s with timeout := .ms n, toCaller := s.toCaller ++ [.ok, .ok] })

/-- R122 and R123: OPEN while CLOSED.  With a handle the key goes out behind a zero byte whatever DEC_EN becomes (the spec's
decision D18), in the order of calls of D20, and a failed feature write is logged and changes nothing else.  Without a handle
OPEN reports TransportError.  In any other phase it is refused (D11). -/
def Obligations.OpenStartsTheSessionOrFails : Prop :=
  ∀ s : State,
    (s.phase = .closed →
      (∀ (fw : Nat) (feat : WriteAnswer), exec (.openSession (.ok fw feat)) s =
        .next { s with
          phase := .opened
          decEn := some (decide (fw ≤ 0x0100))
          wire := s.wire ++ [.transportOpen Config.vendorId Config.productId true, .releaseQuery fw,
            .featureWrite [0x00, s.key.b0, s.key.b1, s.key.b2, s.key.b3, s.key.b4, s.key.b5, s.key.b6, s.key.b7] feat]
          diag := s.diag ++ (if feat = .err then [.featureWriteFailed] else [])
          toCaller := s.toCaller ++ [.ok] }) ∧
      exec (.openSession .err) s =
        .next { s with
          wire := s.wire ++ [.transportOpen Config.vendorId Config.productId false]
          toCaller := s.toCaller ++ [.transportError] }) ∧
    (s.phase ≠ .closed → ∀ r, exec (.openSession r) s = .refused (.notAdmitted .openSession s.phase))

/-- R124 (the spec's decision D22): after an OPEN that gets no handle the registers are as before, one call was made and no report
was sent, and OPEN may be issued again. -/
def Obligations.FailedOpenLeavesNothing : Prop :=
  ∀ s : State, s.phase = .closed →
    ∃ t, exec (.openSession .err) s = .next t ∧ sameRegisters s t ∧
      t.wire = s.wire ++ [.transportOpen Config.vendorId Config.productId false] ∧
      t.cycle = s.cycle ∧ t.diag = s.diag ∧ t.toCaller = s.toCaller ++ [.transportError] ∧
      ∀ fw feat, ∃ u, exec (.openSession (.ok fw feat)) t = .next u ∧ u.phase = .opened ∧ u.key = s.key

/-- R126: CLOSE releases the handle and returns every register to its reset value (the spec's decision D21). -/
def Obligations.CloseReturnsToReset : Prop :=
  ∀ s : State,
    (s.phase ≠ .closed →
      exec .closeSession s =
        .next { State.reset with
          pending := s.pending
          diag := s.diag
          wire := s.wire ++ [.transportRelease]
          toCaller := s.toCaller ++ [.ok] }) ∧
    (s.phase = .closed → exec .closeSession s = .refused (.notAdmitted .closeSession .closed))

/-- R125: the admission table (the spec's decisions D10 and D11).  An admitted READ is one whose transport answers and, on eight
bytes, one for which DEC_EN has a value. -/
def Obligations.AdmissionByPhase : Prop :=
  ∀ s : State,
    (s.phase = .closed →
      (∀ k, ∃ t, exec (.configKey k) s = .next t) ∧ (∀ d, ∃ t, exec (.configDebug d) s = .next t) ∧
      (∀ d, ∃ t, exec (.configTimeout d) s = .next t) ∧ (∀ r, ∃ t, exec (.openSession r) s = .next t) ∧
      (∀ rx, exec (.readOne rx) s = .refused (.notAdmitted .read .closed)) ∧
      exec .closeSession s = .refused (.notAdmitted .closeSession .closed)) ∧
    (s.phase = .opened →
      (∀ k, exec (.configKey k) s = .refused (.notAdmitted .config .opened)) ∧
      (∀ d, exec (.configDebug d) s = .refused (.notAdmitted .config .opened)) ∧
      (∀ d, exec (.configTimeout d) s = .refused (.notAdmitted .config .opened)) ∧
      (∀ r, exec (.openSession r) s = .refused (.notAdmitted .openSession .opened)) ∧
      (∀ a, s.decEn ≠ none → ∃ t, exec (.readOne (.answered a)) s = .next t) ∧
      ∃ t, exec .closeSession s = .next t) ∧
    (s.phase = .ended →
      (∀ k, exec (.configKey k) s = .refused (.notAdmitted .config .ended)) ∧
      (∀ d, exec (.configDebug d) s = .refused (.notAdmitted .config .ended)) ∧
      (∀ d, exec (.configTimeout d) s = .refused (.notAdmitted .config .ended)) ∧
      (∀ r, exec (.openSession r) s = .refused (.notAdmitted .openSession .ended)) ∧
      (∀ rx, exec (.readOne rx) s = .refused (.notAdmitted .read .ended)) ∧
      ∃ t, exec .closeSession s = .next t)

/-! ### The decryptor -/

/-- R12: the byte primitives as arithmetic on 0..255. -/
def Obligations.ByteArithmeticWraps : Prop :=
  ∀ (a b : Byte) (k : Nat), k ≤ 7 →
    (shl8 a k).toNat = (a.toNat * 2 ^ k) % 256 ∧
    (shr8 a k).toNat = a.toNat / 2 ^ k ∧
    (a ^^^ b).toNat = a.toNat ^^^ b.toNat ∧ (a ||| b).toNat = a.toNat ||| b.toNat ∧
    (add8 a b).toNat = (a.toNat + b.toNat) % 256 ∧
    ((sub8 a b).toNat : Int) = ((a.toNat : Int) - b.toNat) % 256 ∧
    (swap4 a).toNat = (a.toNat % 16) * 16 + a.toNat / 16

/-- R100: PERM, byte by byte; applied twice it gives the frame back. -/
def Obligations.PermMovesWholeBytes : Prop :=
  ∀ (s : State) (a b c d e f g h : Byte),
    exec (.perm ⟨a, b, c, d, e, f, g, h⟩) s =
      .next { s with cycle := { s.cycle with p := some ⟨c, e, a, h, b, g, f, d⟩ } } ∧
    exec (.perm ⟨c, e, a, h, b, g, f, d⟩) s =
      .next { s with cycle := { s.cycle with p := some ⟨a, b, c, d, e, f, g, h⟩ } }

/-- R101: XORK pairs KEY[i] with P[i]. -/
def Obligations.XorkPairsKeyByPosition : Prop :=
  ∀ (s : State) (p : Frame),
    exec (.xork p) s =
      (let x : Frame :=
        ⟨p.b0 ^^^ s.key.b0, p.b1 ^^^ s.key.b1, p.b2 ^^^ s.key.b2, p.b3 ^^^ s.key.b3,
         p.b4 ^^^ s.key.b4, p.b5 ^^^ s.key.b5, p.b6 ^^^ s.key.b6, p.b7 ^^^ s.key.b7⟩
       .next { s with cycle := { s.cycle with x := some x } })

/-- R102: bits 7:5 of R[i] are bits 2:0 of the preceding byte of X, bits 4:0 of R[i] are bits 7:3 of X[i]. -/
def Obligations.RotateBitByBit : Prop :=
  ∀ (s : State) (x : Frame), ∃ r : Frame,
    exec (.rotr3 x) s = .next { s with cycle := { s.cycle with r := some r } } ∧
    ∀ i : Fin 8,
      (∀ k, k < 5 → (r.get i).getLsbD k = (x.get i).getLsbD (k + 3)) ∧
      (∀ k, k < 3 → (r.get i).getLsbD (k + 5) = (x.get (i + 7)).getLsbD k)

/-- R59: the same step on the 64-bit view. -/
def Obligations.RotateAsOneWord : Prop :=
  ∀ (s : State) (x : Frame), ∃ r : Frame,
    exec (.rotr3 x) s = .next { s with cycle := { s.cycle with r := some r } } ∧
    r.word = (x.word >>> 3) ||| ((x.word % 8#64) <<< 61)

/-- R103: UNMASK with the eight mask bytes of R31, each subtraction on its own. -/
def Obligations.UnmaskSubtractsPerByte : Prop :=
  ∀ (s : State) (r : Frame),
    exec (.unmask r) s =
      (let d : Frame :=
        ⟨r.b0 - 0x84, r.b1 - 0x47, r.b2 - 0x56, r.b3 - 0xd6, r.b4 - 0x07, r.b5 - 0x93, r.b6 - 0x93, r.b7 - 0x56⟩
       .next { s with cycle := { s.cycle with d := some d } })

/-- R104, closed form: DECRYPT's result byte by byte, and that it writes P, X, R and D and nothing else. -/
def Obligations.DecryptClosedForm : Prop :=
  ∀ (s : State) (raw : Frame), ∃ p x r d : Frame,
    exec (.decrypt raw) s =
      .next { s with cycle := { s.cycle with p := some p, x := some x, r := some r, d := some d } } ∧
    ∀ i : Fin 8,
      d.get i =
        (((raw.get (permIdx (i + 7)) ^^^ s.key.get (i + 7)) <<< 5) ||| ((raw.get (permIdx i) ^^^ s.key.get i) >>> 3)) -
          maskAt i

/-- R104: DECRYPT is PERM, XORK, ROTR3 and UNMASK run one after another, each on what the one before it left. -/
def Obligations.DecryptIsFourStages : Prop :=
  ∀ (s : State) (raw : Frame), ∃ (s1 s2 s3 : State) (p x r : Frame),
    exec (.perm raw) s = .next s1 ∧ s1.cycle.p = some p ∧
    exec (.xork p) s1 = .next s2 ∧ s2.cycle.x = some x ∧
    exec (.rotr3 x) s2 = .next s3 ∧ s3.cycle.r = some r ∧
    exec (.unmask r) s3 = exec (.decrypt raw) s

/-- R107: for every key and every frame `d` exactly one report decrypts to it, the ENCRYPT of the rule. -/
def Obligations.EveryFrameHasOneReport : Prop :=
  ∀ (s : State) (d raw : Frame),
    (∃ t, exec (.decrypt raw) s = .next t ∧ t.cycle.d = some d) ↔
      raw = (let r := Frame.ofFn fun i => d.get i + maskAt i
             let x := Frame.ofFn fun i => ((r.get i) <<< 3) ||| ((r.get (i + 1)) >>> 5)
             let p := Frame.ofFn fun i => x.get i ^^^ s.key.get i
             Frame.ofFn fun i => p.get (permIdx i))

/-- R105: D[i] is fixed by bits 7:3 of RAW[pi(i)] and KEY[i] and bits 2:0 of RAW[pi(j)] and KEY[j], j the preceding index. -/
def Obligations.DecryptedByteDependsOnTwo : Prop :=
  ∀ (s s' : State) (raw raw' : Frame) (i : Fin 8),
    (raw.get (permIdx i)) >>> 3 = (raw'.get (permIdx i)) >>> 3 →
    (s.key.get i) >>> 3 = (s'.key.get i) >>> 3 →
    (raw.get (permIdx (i + 7))) &&& 7 = (raw'.get (permIdx (i + 7))) &&& 7 →
    (s.key.get (i + 7)) &&& 7 = (s'.key.get (i + 7)) &&& 7 →
    ∃ t t' d d', exec (.decrypt raw) s = .next t ∧ exec (.decrypt raw') s' = .next t' ∧
      t.cycle.d = some d ∧ t'.cycle.d = some d' ∧ d.get i = d'.get i

/-! ### The stages of a read cycle -/

/-- R140: RECV, the first stage of an admitted READ, makes one call with the register TIMEOUT; RAW is defined only when N = 8.  That it
leaves every other working value absent, since nothing is carried from one READ to the next (R246), is the model's choice
(notes/assumptions/2.md). -/
def Obligations.RecvTakesOneReport : Prop :=
  ∀ s : State, s.phase = .opened →
    exec (.recv (.answered .ioerr)) s =
      .next { s with wire := s.wire ++ [.transportRead s.timeout .ioerr], cycle := Cycle.empty } ∧
    (∀ bytes : List Byte, bytes.length ≠ 8 →
      exec (.recv (.answered (.ok bytes))) s =
        .next { s with
          wire := s.wire ++ [.transportRead s.timeout (.ok bytes)]
          cycle := { Cycle.empty with n := some bytes.length } }) ∧
    (∀ a b c d e f g h : Byte,
      exec (.recv (.answered (.ok [a, b, c, d, e, f, g, h]))) s =
        .next { s with
          wire := s.wire ++ [.transportRead s.timeout (.ok [a, b, c, d, e, f, g, h])]
          cycle := { Cycle.empty with n := some 8, raw := some ⟨a, b, c, d, e, f, g, h⟩ } })

/-- R141: IOCHK, the one condition that ends the sequence; PHASE = ENDED is the spec's record of that (its decision D10). -/
def Obligations.IochkEndsTheSequence : Prop :=
  ∀ s : State, s.phase = .opened →
    exec (.iochk .ioerr) s =
      .next { s with
        phase := .ended
        cycle := { s.cycle with ioOk := some false, outcome := some .endOfSequence } } ∧
    ∀ bytes, exec (.iochk (.ok bytes)) s = .next { s with cycle := { s.cycle with ioOk := some true } }

/-- The model's choice (notes/assumptions/3.md): RECV, which needs the handle, and IOCHK, which may write PHASE, are refused where
the READ they are stages of is not admitted. -/
def Obligations.RecvAndIochkNeedTheSession : Prop :=
  ∀ s : State, s.phase ≠ .opened →
    (∀ rx, exec (.recv rx) s = .refused (.notAdmitted .read s.phase)) ∧
    ∀ a, exec (.iochk a) s = .refused (.notAdmitted .read s.phase)

/-- R142: LENCHK. -/
def Obligations.LenchkWantsEight : Prop :=
  ∀ (s : State) (n : Nat),
    (n = 8 → exec (.lenchk n) s = .next { s with cycle := { s.cycle with lenOk := some true } }) ∧
    (n ≠ 8 → exec (.lenchk n) s =
      .next { s with cycle := { s.cycle with lenOk := some false, outcome := some (.event .wrongPacket) } })

/-- R143: DECSEL.  In bypass mode F is RAW and nothing of the decryptor runs; in decrypt mode F is what DECRYPT gives. -/
def Obligations.DecselChoosesByDecEn : Prop :=
  ∀ (s : State) (raw : Frame),
    (s.decEn = some false → exec (.decsel raw) s = .next { s with cycle := { s.cycle with f := some raw } }) ∧
    (s.decEn = some true → ∃ t, exec (.decrypt raw) s = .next t ∧
      exec (.decsel raw) s = .next { t with cycle := { t.cycle with f := t.cycle.d } })

/-- R144: MARKCHK. -/
def Obligations.MarkchkComparesByteFour : Prop :=
  ∀ (s : State) (f : Frame),
    (f.b4 = 0x0d → exec (.markchk f) s = .next { s with cycle := { s.cycle with markOk := some true } }) ∧
    (f.b4 ≠ 0x0d → exec (.markchk f) s =
      .next { s with cycle := { s.cycle with markOk := some false, outcome := some (.event (.unexpectedData f)) } })

/-- R145: SUMCHK, the sum taken in the integers and reduced modulo 256. -/
def Obligations.SumchkComparesLowByte : Prop :=
  ∀ (s : State) (f : Frame), ∃ sum : Byte,
    sum.toNat = (f.b0.toNat + f.b1.toNat + f.b2.toNat) % 256 ∧
    (sum = f.b3 → exec (.sumchk f) s =
      .next { s with cycle := { s.cycle with sum := some sum, sumOk := some true } }) ∧
    (sum ≠ f.b3 → exec (.sumchk f) s =
      .next { s with cycle := { s.cycle with
        sum := some sum, sumOk := some false, outcome := some (.event .checksumError) } })

/-- R160: VALUE is big-endian and unsigned. -/
def Obligations.ValueIsBigEndian : Prop :=
  ∀ (s : State) (hi lo : Byte), ∃ v : BitVec 16,
    v.toNat = hi.toNat * 256 + lo.toNat ∧
    exec (.value hi lo) s = .next { s with cycle := { s.cycle with v := some v } }

/-- R165: DISPATCH compares the whole code byte. -/
def Obligations.DispatchSelectsByCode : Prop :=
  ∀ (s : State) (code : Byte), ∃ c : Classification,
    exec (.dispatch code) s = .next { s with cycle := { s.cycle with selected := some c } } ∧
    (c = .hum ↔ code.toNat = 0x41) ∧ (c = .temp ↔ code.toNat = 0x42) ∧ (c = .co2 ↔ code.toNat = 0x50) ∧
    (c = .unk ↔ code.toNat ≠ 0x41 ∧ code.toNat ≠ 0x42 ∧ code.toNat ≠ 0x50)

/-- R161: CLS.HUM yields V, and the number it stands for is V / 100. -/
def Obligations.HumidityIsValueOverHundred : Prop :=
  ∀ (s : State) (v : BitVec 16) (pad : Pad),
    exec (.clsHum v pad) s = .next { s with cycle := { s.cycle with outcome := some (.event (.humidity v)) } } ∧
    eventNumber (.humidity v) = some ((v.toNat : Rat) / 100)

/-- R162: CLS.TEMP yields V, and the number it stands for is V / 16 - 273.15 = (5 V - 21852) / 80. -/
def Obligations.TemperatureIsScaledAndShifted : Prop :=
  ∀ (s : State) (v : BitVec 16) (pad : Pad),
    exec (.clsTemp v pad) s =
      .next { s with cycle := { s.cycle with outcome := some (.event (.ambientTemperature v)) } } ∧
    eventNumber (.ambientTemperature v) = some ((v.toNat : Rat) / 16 - 27315 / 100) ∧
    eventNumber (.ambientTemperature v) = some ((5 * (v.toNat : Rat) - 21852) / 80)

/-- R163: CLS.CO2, the boundary on the accepting side. -/
def Obligations.Co2AboveLimitIsRejected : Prop :=
  ∀ (s : State) (v : BitVec 16) (pad : Pad),
    (v.toNat ≤ 3000 → exec (.clsCo2 v pad) s =
      .next { s with cycle := { s.cycle with outcome := some (.event (.relativeConcentration v)) } }) ∧
    (3000 < v.toNat → exec (.clsCo2 v pad) s =
      .next { s with cycle := { s.cycle with outcome := some (.event .uninitializedData) } })

/-- R164: CLS.UNK hands out all eight bytes. -/
def Obligations.UnknownCodeCarriesTheFrame : Prop :=
  ∀ (s : State) (f : Frame),
    exec (.clsUnk f) s = .next { s with cycle := { s.cycle with outcome := some (.event (.unknownCode f)) } }

/-- R183: DBGTAP logs on every outcome but NONE when DEBUG = 1, and has no other effect.  The entry's content is the spec's
choice (D13). -/
def Obligations.DebugTapOnlyLogs : Prop :=
  ∀ (s : State) (bytes : List Byte) (f : Option Frame),
    (∀ e, s.debug = true → exec (.dbgtap bytes f (.event e)) s =
      .next { s with diag := s.diag ++ [.tap bytes.length bytes f (.event e)] }) ∧
    exec (.dbgtap bytes f .endOfSequence) s = .next s ∧
    ∀ o, s.debug = false → exec (.dbgtap bytes f o) s = .next s

/-! ### READ -/

/-- R180 and R206: the nine outcomes of an admitted READ, one for each answer, the first cause that applies; and all else that
the READ leaves.  PHASE = ENDED after a failed read and the tap's content are the spec's decisions D10 and D13.  F is DECRYPT's
result or RAW itself (R143). -/
def Obligations.ReadHasNineOutcomes : Prop :=
  ∀ (s : State) (b : Bool), s.phase = .opened → s.decEn = some b →
    exec (.readOne (.answered .ioerr)) s =
      .next { s with
        phase := .ended
        cycle := Cycle.empty
        toCaller := s.toCaller ++ [.outcome .endOfSequence]
        wire := s.wire ++ [.transportRead s.timeout .ioerr] } ∧
    (∀ bytes : List Byte, bytes.length ≠ 8 →
      exec (.readOne (.answered (.ok bytes))) s = .next (s.afterEvent bytes none .wrongPacket)) ∧
    (∀ raw f : Frame, f = (if b then decryptFrame raw s.key else raw) →
      let gives := fun e : Event =>
        exec (.readOne (.answered (.ok raw.toBytes))) s = .next (s.afterEvent raw.toBytes (some f) e)
      let sum := (f.b0.toNat + f.b1.toNat + f.b2.toNat) % 256 = f.b3.toNat
      let v := f.b1 ++ f.b2
      (f.b4 ≠ 0x0d → gives (.unexpectedData f)) ∧
      (f.b4 = 0x0d → ¬ sum → gives .checksumError) ∧
      (f.b4 = 0x0d → sum → f.b0 = 0x41 → gives (.humidity v)) ∧
      (f.b4 = 0x0d → sum → f.b0 = 0x42 → gives (.ambientTemperature v)) ∧
      (f.b4 = 0x0d → sum → f.b0 = 0x50 → f.b1.toNat * 256 + f.b2.toNat ≤ 3000 → gives (.relativeConcentration v)) ∧
      (f.b4 = 0x0d → sum → f.b0 = 0x50 → 3000 < f.b1.toNat * 256 + f.b2.toNat → gives .uninitializedData) ∧
      (f.b4 = 0x0d → sum → f.b0 ≠ 0x41 → f.b0 ≠ 0x42 → f.b0 ≠ 0x50 → gives (.unknownCode f)))

/-- The model's choice (notes/assumptions/6.md): a read that the transport never answers is a stop, the fault transportNeverAnswers,
for every TIMEOUT.  R211 and I14 say that such a READ may never return. -/
def Obligations.UnansweredReadNeverReturns : Prop :=
  ∀ s : State, s.phase = .opened →
    exec (.readOne .never) s = .fault .transportNeverAnswers ∧
    exec (.recv .never) s = .fault .transportNeverAnswers

/-- The model's choice (notes/assumptions/7.md): where DEC_EN has no value, DECSEL is refused by name in every phase, CLOSED among
them.  With PHASE = OPEN besides, which no state of a session reaches (StepKeepsRegistersLegal), a READ that comes to DECSEL is
refused so too, and a READ that ends before it is answered. -/
def Obligations.ReadStopsWithoutDecEn : Prop :=
  ∀ (s : State) (raw : Frame), s.decEn = none →
    exec (.decsel raw) s = .refused .decEnHasNoValue ∧
    (s.phase = .opened →
      exec (.readOne (.answered (.ok raw.toBytes))) s = .refused .decEnHasNoValue ∧
      (∀ bytes : List Byte, bytes.length ≠ 8 →
        exec (.readOne (.answered (.ok bytes))) s = .next (s.afterEvent bytes none .wrongPacket)) ∧
      ∃ t, exec (.readOne (.answered .ioerr)) s = .next t ∧ t.phase = .ended)

/-- R180: READ is its stages run one after another, the first outcome ending the cycle, whatever the answer and the state. -/
def Obligations.ReadIsItsStages : Prop :=
  ∀ (rx : ReadReply) (s : State), readByStages rx s = exec (.readOne rx) s

/-- What READ returns for eight bytes is what the operation yields that the frame decoder of R81 selects for F. -/
def Obligations.FrameDecoderAgreesWithRead : Prop :=
  ∀ (s : State) (b : Bool) (raw f : Frame), s.phase = .opened → s.decEn = some b →
    f = (if b then decryptFrame raw s.key else raw) →
    ∃ t u o, exec (.readOne (.answered (.ok raw.toBytes))) s = .next t ∧ exec (decodeFrame f) s = .next u ∧
      u.cycle.outcome = some o ∧ t.toCaller = s.toCaller ++ [.outcome o] ∧ sameRegisters s u

/-- R35: what a READ returns and the phase it leaves depend on KEY, DEC_EN and the answer only: not on TIMEOUT, DEBUG, working
values of an earlier cycle, or what went before. -/
def Obligations.ReadDependsOnKeyModeAnswer : Prop :=
  ∀ (s s' : State) (a : ReadAnswer), s.phase = .opened → s'.phase = .opened → s.decEn ≠ none →
    s'.key = s.key → s'.decEn = s.decEn →
    ∃ t t' o, exec (.readOne (.answered a)) s = .next t ∧ exec (.readOne (.answered a)) s' = .next t' ∧
      t.toCaller = s.toCaller ++ [.outcome o] ∧ t'.toCaller = s'.toCaller ++ [.outcome o] ∧
      t'.phase = t.phase ∧ t'.cycle = t.cycle

/-- R146 and R168: a valid frame never gives ChecksumError or UnexpectedData, and any other frame gives one of the two. -/
def Obligations.OnlyValidFramesAreClassified : Prop :=
  ∀ (s : State) (b : Bool) (raw f : Frame), s.phase = .opened → s.decEn = some b →
    f = (if b then decryptFrame raw s.key else raw) →
    ∃ t e, exec (.readOne (.answered (.ok raw.toBytes))) s = .next t ∧
      t.toCaller = s.toCaller ++ [.outcome (.event e)] ∧
      ((f.b4 = 0x0d ∧ (f.b0.toNat + f.b1.toNat + f.b2.toNat) % 256 = f.b3.toNat) →
        (∃ v, e = .humidity v) ∨ (∃ v, e = .ambientTemperature v) ∨ (∃ v, e = .relativeConcentration v) ∨
        e = .uninitializedData ∨ e = .unknownCode f) ∧
      (¬ (f.b4 = 0x0d ∧ (f.b0.toNat + f.b1.toNat + f.b2.toNat) % 256 = f.b3.toNat) →
        e = .unexpectedData f ∨ e = .checksumError)

/-- R182: a READ that the transport answers with any bytes leaves every register, and the next READ is answered too. -/
def Obligations.SoftFailureKeepsTheSession : Prop :=
  ∀ (s : State) (bytes : List Byte) (a : ReadAnswer), s.phase = .opened → s.decEn ≠ none →
    ∃ t u, exec (.readOne (.answered (.ok bytes))) s = .next t ∧ sameRegisters s t ∧
      exec (.readOne (.answered a)) t = .next u ∧ (u.phase = .ended ↔ a = .ioerr)

/-! ### Rules over every operation -/

/-- R21: PHASE changes only as the rule lists (PHASE itself is the spec's decisions D3 and D10). -/
def Obligations.PhaseTransitions : Prop :=
  ∀ (i : Instr) (s t : State), exec i s = .next t → t.phase ≠ s.phase →
    (s.phase = .closed ∧ t.phase = .opened ∧ ∃ fw feat, i = .openSession (.ok fw feat)) ∨
    (s.phase = .opened ∧ t.phase = .ended ∧ (i = .readOne (.answered .ioerr) ∨ i = .iochk .ioerr)) ∨
    (s.phase ≠ .closed ∧ t.phase = .closed ∧ i = .closeSession)

/-- Who writes KEY, DEC_EN, TIMEOUT and DEBUG (R20, R35): CONFIG while CLOSED, OPEN while CLOSED, and CLOSE. -/
def Obligations.RegisterWriters : Prop :=
  ∀ (i : Instr) (s t : State), exec i s = .next t → i ≠ .closeSession →
    (t.key ≠ s.key → s.phase = .closed ∧ i = .configKey t.key) ∧
    (t.decEn ≠ s.decEn → s.phase = .closed ∧ ∃ fw feat, i = .openSession (.ok fw feat)) ∧
    (t.timeout ≠ s.timeout → s.phase = .closed ∧ ∃ d, i = .configTimeout d) ∧
    (t.debug ≠ s.debug → s.phase = .closed ∧ i = .configDebug t.debug)

/-- R247: from OPEN until CLOSE no step changes KEY, DEC_EN, TIMEOUT or DEBUG. -/
def Obligations.ConfigurationFrozenInSession : Prop :=
  ∀ s t : State, s.phase ≠ .closed → step s = .next t → t.phase ≠ .closed → sameConfiguration s t

/-- Each admitted command returns exactly one value to the caller, and no stage returns any (R184, R185). -/
def Obligations.OneResponsePerCommand : Prop :=
  ∀ (i : Instr) (s t : State), exec i s = .next t →
    (isCommand i = true → ∃ r, t.toCaller = s.toCaller ++ [r]) ∧
    (isCommand i = false → t.toCaller = s.toCaller)

/-- A stage and an operation selected by frame bits write no register, but for the stage IOCHK on a failed read, which ends the
sequence (R27, R207). -/
def Obligations.StagesWriteNoRegister : Prop :=
  ∀ (i : Instr) (s t : State), isCommand i = false → exec i s = .next t →
    (i = .iochk .ioerr → t.phase = .ended ∧ sameConfiguration s t) ∧
    (i ≠ .iochk .ioerr → sameRegisters s t)

/-- R25: no register, no check and no event depends on DEBUG: every operation leaves the same state whatever DEBUG holds, but for
DEBUG itself and the diagnostics. -/
def Obligations.DebugChangesNoOutcome : Prop :=
  ∀ (i : Instr) (s t : State) (d : Bool), exec i s = .next t →
    ∃ t', exec i { s with debug := d } = .next t' ∧ { t' with debug := t.debug, diag := t.diag } = t

/-! ### Invariants -/

/-- The three invariants hold after reset.  That the bound of R24 holds of MS(5000) rests on TIMEOUT_MAX_MS being at least 5000, the
model's deduction (notes/assumptions/4.md). -/
def Obligations.InvariantsHoldAtReset : Prop :=
  State.reset.RegistersLegal ∧ State.reset.CallsInOrder ∧ State.reset.SessionOnRecord

/-- Every step keeps the registers legal: DEC_EN has a value exactly while a session exists (R23), and a bound in TIMEOUT fits
(R24).  After CLOSE, which restores MS(5000), the bound rests on TIMEOUT_MAX_MS being at least 5000, the model's deduction
(notes/assumptions/4.md). -/
def Obligations.StepKeepsRegistersLegal : Prop :=
  ∀ s t : State, s.RegistersLegal → step s = .next t → t.RegistersLegal

/-- R63: every step keeps the transport's calls in the order of whole sessions, one under way exactly while a handle exists. -/
def Obligations.StepKeepsCallsInOrder : Prop :=
  ∀ s t : State, s.CallsInOrder → step s = .next t → t.CallsInOrder

/-- Every step keeps the session on record: the key offered to the device is the key XORK uses (R231), DEC_EN is what this
session's release number gives (R23), and each read was bounded by TIMEOUT (R140). -/
def Obligations.StepKeepsSessionOnRecord : Prop :=
  ∀ s t : State, s.SessionOnRecord → step s = .next t → t.SessionOnRecord

/-! ### The numbers of an event -/

/-- R166: both scaled results are finite and within the bounds of the rule; a temperature is negative exactly up to V = 4370 and
never 0 (R162). -/
def Obligations.ScaledResultsAreBounded : Prop :=
  ∀ v : BitVec 16, ∃ h t : Rat,
    eventNumber (.humidity v) = some h ∧ eventNumber (.ambientTemperature v) = some t ∧
    0 ≤ h ∧ h ≤ 65535 / 100 ∧ -(27315 / 100) ≤ t ∧ t ≤ 38227875 / 10000 ∧
    (t < 0 ↔ v.toNat ≤ 4370) ∧ t ≠ 0

/-- R186: the export point of each outcome. -/
def Obligations.ExportsThreeMeasurements : Prop :=
  ∀ (v : BitVec 16) (f : Frame),
    exportPoint (.event (.ambientTemperature v)) =
      some ⟨"co2monitor", "ambient_temperature", (v.toNat : Rat) / 16 - 27315 / 100⟩ ∧
    exportPoint (.event (.relativeConcentration v)) = some ⟨"co2monitor", "relative_concentration", (v.toNat : Rat)⟩ ∧
    exportPoint (.event (.humidity v)) = some ⟨"co2monitor", "humidity", (v.toNat : Rat) / 100⟩ ∧
    exportPoint (.event (.unexpectedData f)) = none ∧ exportPoint (.event .wrongPacket) = none ∧
    exportPoint (.event .checksumError) = none ∧ exportPoint (.event .uninitializedData) = none ∧
    exportPoint (.event (.unknownCode f)) = none ∧ exportPoint .endOfSequence = none
end

