-- ==== Sys2Proof/Laws/Bytes.lean ====
section
/-! SUPPORT. The small lemmas of a frame: reading a byte, the two layouts, the word and its fields. -/

namespace Sys2Proof

open Sys2Proof.Machine

@[simp] theorem Frame.get_ofFn (g : Fin 8 → Byte) (i : Fin 8) : (Frame.ofFn g).get i = g i := by
  fin_cases i <;> rfl

/-- Two frames with the same bytes are equal. -/
theorem Frame.ext_get {f g : Frame} (h : ∀ i, f.get i = g.get i) : f = g := by
  cases f; cases g
  simp only [Frame.mk.injEq]
  exact ⟨h 0, h 1, h 2, h 3, h 4, h 5, h 6, h 7⟩

@[simp] theorem Frame.length_toBytes (f : Frame) : f.toBytes.length = 8 := rfl

@[simp] theorem Frame.ofBytes_toBytes (f : Frame) : Frame.ofBytes f.toBytes = f := rfl

/-- Eight bytes are the bytes of their frame. -/
theorem Frame.toBytes_ofBytes {bytes : List Byte} (h : bytes.length = 8) :
    (Frame.ofBytes bytes).toBytes = bytes := by
  match bytes, h with
  | [_, _, _, _, _, _, _, _], _ => rfl

/-- The decoder reads a frame from its own bytes. -/
@[simp] theorem decode_toBytes (f : Frame) : decode f.toBytes = .ok (decodeFrame f) := by
  simp [decode, Config.frameLen]

@[simp] theorem permIdx_permIdx (i : Fin 8) : permIdx (permIdx i) = i := by
  revert i; decide

@[simp] theorem nextIdx_prevIdx (i : Fin 8) : nextIdx (prevIdx i) = i := by
  revert i; decide

@[simp] theorem prevIdx_nextIdx (i : Fin 8) : prevIdx (nextIdx i) = i := by
  revert i; decide

/-- A byte appended below counts up to 255 (R13: concatenation, the left part more significant). -/
theorem append_toNat {n : Nat} (x : BitVec n) (y : Byte) : (x ++ y).toNat = x.toNat * 256 + y.toNat := by
  have h := y.isLt
  rw [BitVec.toNat_append, ← Nat.shiftLeft_add_eq_or_of_lt (by omega), Nat.shiftLeft_eq]

/-- V as a number (R13, R75). -/
theorem u16_toNat (hi lo : Byte) : (u16 hi lo).toNat = hi.toNat * 256 + lo.toNat := append_toNat hi lo

/-- W(f) as a number (R13). -/
theorem Frame.word_toNat (f : Frame) :
    f.word.toNat = ((((((f.b0.toNat * 256 + f.b1.toNat) * 256 + f.b2.toNat) * 256 + f.b3.toNat) * 256 + f.b4.toNat) * 256 +
      f.b5.toNat) * 256 + f.b6.toNat) * 256 + f.b7.toNat := by
  refine (append_toNat _ _).trans ?_
  repeat rw [append_toNat]

/-- Byte i of a word is where R13 puts it. -/
@[simp] theorem Frame.ofWord_word (f : Frame) : Frame.ofWord f.word = f := by
  refine Frame.ext_get fun i => BitVec.eq_of_toNat_eq ?_
  have := f.b0.isLt; have := f.b1.isLt; have := f.b2.isLt; have := f.b3.isLt
  have := f.b4.isLt; have := f.b5.isLt; have := f.b6.isLt; have := f.b7.isLt
  simp only [Frame.ofWord, Frame.get_ofFn, BitVec.extractLsb'_toNat, Frame.word_toNat, Nat.shiftRight_eq_div_pow]
  fin_cases i <;> simp [Frame.get] <;> omega

/-- A word names its frame. -/
theorem Frame.word_inj {f g : Frame} : f.word = g.word ↔ f = g :=
  ⟨fun h => by rw [← Frame.ofWord_word f, h, Frame.ofWord_word], congrArg _⟩

/-- Masking a word masks each byte. -/
theorem Frame.word_and (f g : Frame) :
    f.word &&& g.word = (Frame.ofFn fun i => f.get i &&& g.get i).word := by
  simp only [Frame.word, Frame.ofFn, Frame.get]
  repeat rw [BitVec.and_append]

/-- A row's condition on a masked word is a condition on its bytes. -/
theorem Frame.word_and_eq (f m c : Frame) :
    f.word &&& m.word = c.word ↔ ∀ i, f.get i &&& m.get i = c.get i := by
  rw [Frame.word_and, Frame.word_inj]
  exact ⟨fun h i => by rw [← h, Frame.get_ofFn], fun h => Frame.ext_get fun i => by rw [Frame.get_ofFn, h]⟩

/-- A value is put together from its own two bytes (R13). -/
@[simp] theorem u16_extract (v : BitVec 16) : u16 (v.extractLsb' 8 8) (v.extractLsb' 0 8) = v := by
  apply BitVec.eq_of_toNat_eq
  have := v.isLt
  simp only [u16_toNat, BitVec.extractLsb'_toNat, Nat.shiftRight_eq_div_pow]
  omega

/-- Rotating left by 3 undoes rotating right by 3, byte by byte (R102, R107). -/
theorem rotate_left_of_right (a b c : Byte) :
    (shl8 (shl8 a 5 ||| shr8 b 3) 3) ||| (shr8 (shl8 b 5 ||| shr8 c 3) 5) = b := by
  simp only [shl8, shr8]
  apply BitVec.eq_of_getLsbD_eq
  intro i hi
  interval_cases i <;> simp

/-- And the other way round. -/
theorem rotate_right_of_left (a b c : Byte) :
    (shl8 (shl8 a 3 ||| shr8 b 5) 5) ||| (shr8 (shl8 b 3 ||| shr8 c 5) 3) = b := by
  simp only [shl8, shr8]
  apply BitVec.eq_of_getLsbD_eq
  intro i hi
  interval_cases i <;> simp

/-- The three low bits of a word, brought to the top (R59). -/
theorem low_three_shiftLeft (w : BitVec 64) : (w % 8#64) <<< 61 = w <<< 61 := by
  apply BitVec.eq_of_toNat_eq
  simp [Nat.shiftLeft_eq]
  omega

end Sys2Proof
end

