-- ==== Sys2Proof/Laws/State.lean ====
section
/-! SUPPORT. One lemma per field of State per update, each true by rfl. -/

namespace Sys2Proof.Machine

open Sys2Proof

@[simp] theorem State.setPhase_phase (s : State) (p : Phase) : (s.setPhase p).phase = p := rfl
@[simp] theorem State.setPhase_key (s : State) (p : Phase) : (s.setPhase p).key = s.key := rfl
@[simp] theorem State.setPhase_decEn (s : State) (p : Phase) : (s.setPhase p).decEn = s.decEn := rfl
@[simp] theorem State.setPhase_timeout (s : State) (p : Phase) : (s.setPhase p).timeout = s.timeout := rfl
@[simp] theorem State.setPhase_debug (s : State) (p : Phase) : (s.setPhase p).debug = s.debug := rfl
@[simp] theorem State.setPhase_cycle (s : State) (p : Phase) : (s.setPhase p).cycle = s.cycle := rfl
@[simp] theorem State.setPhase_pending (s : State) (p : Phase) : (s.setPhase p).pending = s.pending := rfl
@[simp] theorem State.setPhase_toCaller (s : State) (p : Phase) : (s.setPhase p).toCaller = s.toCaller := rfl
@[simp] theorem State.setPhase_wire (s : State) (p : Phase) : (s.setPhase p).wire = s.wire := rfl
@[simp] theorem State.setPhase_diag (s : State) (p : Phase) : (s.setPhase p).diag = s.diag := rfl

@[simp] theorem State.setKey_phase (s : State) (k : Key) : (s.setKey k).phase = s.phase := rfl
@[simp] theorem State.setKey_key (s : State) (k : Key) : (s.setKey k).key = k := rfl
@[simp] theorem State.setKey_decEn (s : State) (k : Key) : (s.setKey k).decEn = s.decEn := rfl
@[simp] theorem State.setKey_timeout (s : State) (k : Key) : (s.setKey k).timeout = s.timeout := rfl
@[simp] theorem State.setKey_debug (s : State) (k : Key) : (s.setKey k).debug = s.debug := rfl
@[simp] theorem State.setKey_cycle (s : State) (k : Key) : (s.setKey k).cycle = s.cycle := rfl
@[simp] theorem State.setKey_pending (s : State) (k : Key) : (s.setKey k).pending = s.pending := rfl
@[simp] theorem State.setKey_toCaller (s : State) (k : Key) : (s.setKey k).toCaller = s.toCaller := rfl
@[simp] theorem State.setKey_wire (s : State) (k : Key) : (s.setKey k).wire = s.wire := rfl
@[simp] theorem State.setKey_diag (s : State) (k : Key) : (s.setKey k).diag = s.diag := rfl

@[simp] theorem State.setDecEn_phase (s : State) (b : Option Bool) : (s.setDecEn b).phase = s.phase := rfl
@[simp] theorem State.setDecEn_key (s : State) (b : Option Bool) : (s.setDecEn b).key = s.key := rfl
@[simp] theorem State.setDecEn_decEn (s : State) (b : Option Bool) : (s.setDecEn b).decEn = b := rfl
@[simp] theorem State.setDecEn_timeout (s : State) (b : Option Bool) : (s.setDecEn b).timeout = s.timeout := rfl
@[simp] theorem State.setDecEn_debug (s : State) (b : Option Bool) : (s.setDecEn b).debug = s.debug := rfl
@[simp] theorem State.setDecEn_cycle (s : State) (b : Option Bool) : (s.setDecEn b).cycle = s.cycle := rfl
@[simp] theorem State.setDecEn_pending (s : State) (b : Option Bool) : (s.setDecEn b).pending = s.pending := rfl
@[simp] theorem State.setDecEn_toCaller (s : State) (b : Option Bool) : (s.setDecEn b).toCaller = s.toCaller := rfl
@[simp] theorem State.setDecEn_wire (s : State) (b : Option Bool) : (s.setDecEn b).wire = s.wire := rfl
@[simp] theorem State.setDecEn_diag (s : State) (b : Option Bool) : (s.setDecEn b).diag = s.diag := rfl

@[simp] theorem State.setTimeout_phase (s : State) (t : Timeout) : (s.setTimeout t).phase = s.phase := rfl
@[simp] theorem State.setTimeout_key (s : State) (t : Timeout) : (s.setTimeout t).key = s.key := rfl
@[simp] theorem State.setTimeout_decEn (s : State) (t : Timeout) : (s.setTimeout t).decEn = s.decEn := rfl
@[simp] theorem State.setTimeout_timeout (s : State) (t : Timeout) : (s.setTimeout t).timeout = t := rfl
@[simp] theorem State.setTimeout_debug (s : State) (t : Timeout) : (s.setTimeout t).debug = s.debug := rfl
@[simp] theorem State.setTimeout_cycle (s : State) (t : Timeout) : (s.setTimeout t).cycle = s.cycle := rfl
@[simp] theorem State.setTimeout_pending (s : State) (t : Timeout) : (s.setTimeout t).pending = s.pending := rfl
@[simp] theorem State.setTimeout_toCaller (s : State) (t : Timeout) : (s.setTimeout t).toCaller = s.toCaller := rfl
@[simp] theorem State.setTimeout_wire (s : State) (t : Timeout) : (s.setTimeout t).wire = s.wire := rfl
@[simp] theorem State.setTimeout_diag (s : State) (t : Timeout) : (s.setTimeout t).diag = s.diag := rfl

@[simp] theorem State.setDebug_phase (s : State) (d : Bool) : (s.setDebug d).phase = s.phase := rfl
@[simp] theorem State.setDebug_key (s : State) (d : Bool) : (s.setDebug d).key = s.key := rfl
@[simp] theorem State.setDebug_decEn (s : State) (d : Bool) : (s.setDebug d).decEn = s.decEn := rfl
@[simp] theorem State.setDebug_timeout (s : State) (d : Bool) : (s.setDebug d).timeout = s.timeout := rfl
@[simp] theorem State.setDebug_debug (s : State) (d : Bool) : (s.setDebug d).debug = d := rfl
@[simp] theorem State.setDebug_cycle (s : State) (d : Bool) : (s.setDebug d).cycle = s.cycle := rfl
@[simp] theorem State.setDebug_pending (s : State) (d : Bool) : (s.setDebug d).pending = s.pending := rfl
@[simp] theorem State.setDebug_toCaller (s : State) (d : Bool) : (s.setDebug d).toCaller = s.toCaller := rfl
@[simp] theorem State.setDebug_wire (s : State) (d : Bool) : (s.setDebug d).wire = s.wire := rfl
@[simp] theorem State.setDebug_diag (s : State) (d : Bool) : (s.setDebug d).diag = s.diag := rfl

@[simp] theorem State.setCycle_phase (s : State) (c : Cycle) : (s.setCycle c).phase = s.phase := rfl
@[simp] theorem State.setCycle_key (s : State) (c : Cycle) : (s.setCycle c).key = s.key := rfl
@[simp] theorem State.setCycle_decEn (s : State) (c : Cycle) : (s.setCycle c).decEn = s.decEn := rfl
@[simp] theorem State.setCycle_timeout (s : State) (c : Cycle) : (s.setCycle c).timeout = s.timeout := rfl
@[simp] theorem State.setCycle_debug (s : State) (c : Cycle) : (s.setCycle c).debug = s.debug := rfl
@[simp] theorem State.setCycle_cycle (s : State) (c : Cycle) : (s.setCycle c).cycle = c := rfl
@[simp] theorem State.setCycle_pending (s : State) (c : Cycle) : (s.setCycle c).pending = s.pending := rfl
@[simp] theorem State.setCycle_toCaller (s : State) (c : Cycle) : (s.setCycle c).toCaller = s.toCaller := rfl
@[simp] theorem State.setCycle_wire (s : State) (c : Cycle) : (s.setCycle c).wire = s.wire := rfl
@[simp] theorem State.setCycle_diag (s : State) (c : Cycle) : (s.setCycle c).diag = s.diag := rfl

@[simp] theorem State.setPending_phase (s : State) (q : List Request) : (s.setPending q).phase = s.phase := rfl
@[simp] theorem State.setPending_key (s : State) (q : List Request) : (s.setPending q).key = s.key := rfl
@[simp] theorem State.setPending_decEn (s : State) (q : List Request) : (s.setPending q).decEn = s.decEn := rfl
@[simp] theorem State.setPending_timeout (s : State) (q : List Request) : (s.setPending q).timeout = s.timeout := rfl
@[simp] theorem State.setPending_debug (s : State) (q : List Request) : (s.setPending q).debug = s.debug := rfl
@[simp] theorem State.setPending_cycle (s : State) (q : List Request) : (s.setPending q).cycle = s.cycle := rfl
@[simp] theorem State.setPending_pending (s : State) (q : List Request) : (s.setPending q).pending = q := rfl
@[simp] theorem State.setPending_toCaller (s : State) (q : List Request) : (s.setPending q).toCaller = s.toCaller := rfl
@[simp] theorem State.setPending_wire (s : State) (q : List Request) : (s.setPending q).wire = s.wire := rfl
@[simp] theorem State.setPending_diag (s : State) (q : List Request) : (s.setPending q).diag = s.diag := rfl

@[simp] theorem State.respond_phase (s : State) (r : Response) : (s.respond r).phase = s.phase := rfl
@[simp] theorem State.respond_key (s : State) (r : Response) : (s.respond r).key = s.key := rfl
@[simp] theorem State.respond_decEn (s : State) (r : Response) : (s.respond r).decEn = s.decEn := rfl
@[simp] theorem State.respond_timeout (s : State) (r : Response) : (s.respond r).timeout = s.timeout := rfl
@[simp] theorem State.respond_debug (s : State) (r : Response) : (s.respond r).debug = s.debug := rfl
@[simp] theorem State.respond_cycle (s : State) (r : Response) : (s.respond r).cycle = s.cycle := rfl
@[simp] theorem State.respond_pending (s : State) (r : Response) : (s.respond r).pending = s.pending := rfl
@[simp] theorem State.respond_toCaller (s : State) (r : Response) : (s.respond r).toCaller = s.toCaller ++ [r] := rfl
@[simp] theorem State.respond_wire (s : State) (r : Response) : (s.respond r).wire = s.wire := rfl
@[simp] theorem State.respond_diag (s : State) (r : Response) : (s.respond r).diag = s.diag := rfl

@[simp] theorem State.call_phase (s : State) (c : TransportCall) : (s.call c).phase = s.phase := rfl
@[simp] theorem State.call_key (s : State) (c : TransportCall) : (s.call c).key = s.key := rfl
@[simp] theorem State.call_decEn (s : State) (c : TransportCall) : (s.call c).decEn = s.decEn := rfl
@[simp] theorem State.call_timeout (s : State) (c : TransportCall) : (s.call c).timeout = s.timeout := rfl
@[simp] theorem State.call_debug (s : State) (c : TransportCall) : (s.call c).debug = s.debug := rfl
@[simp] theorem State.call_cycle (s : State) (c : TransportCall) : (s.call c).cycle = s.cycle := rfl
@[simp] theorem State.call_pending (s : State) (c : TransportCall) : (s.call c).pending = s.pending := rfl
@[simp] theorem State.call_toCaller (s : State) (c : TransportCall) : (s.call c).toCaller = s.toCaller := rfl
@[simp] theorem State.call_wire (s : State) (c : TransportCall) : (s.call c).wire = s.wire ++ [c] := rfl
@[simp] theorem State.call_diag (s : State) (c : TransportCall) : (s.call c).diag = s.diag := rfl

@[simp] theorem State.note_phase (s : State) (d : Diagnostic) : (s.note d).phase = s.phase := rfl
@[simp] theorem State.note_key (s : State) (d : Diagnostic) : (s.note d).key = s.key := rfl
@[simp] theorem State.note_decEn (s : State) (d : Diagnostic) : (s.note d).decEn = s.decEn := rfl
@[simp] theorem State.note_timeout (s : State) (d : Diagnostic) : (s.note d).timeout = s.timeout := rfl
@[simp] theorem State.note_debug (s : State) (d : Diagnostic) : (s.note d).debug = s.debug := rfl
@[simp] theorem State.note_cycle (s : State) (d : Diagnostic) : (s.note d).cycle = s.cycle := rfl
@[simp] theorem State.note_pending (s : State) (d : Diagnostic) : (s.note d).pending = s.pending := rfl
@[simp] theorem State.note_toCaller (s : State) (d : Diagnostic) : (s.note d).toCaller = s.toCaller := rfl
@[simp] theorem State.note_wire (s : State) (d : Diagnostic) : (s.note d).wire = s.wire := rfl
@[simp] theorem State.note_diag (s : State) (d : Diagnostic) : (s.note d).diag = s.diag ++ [d] := rfl

@[simp] theorem State.yield_phase (s : State) (o : ReadOutcome) : (s.yield o).phase = s.phase := rfl
@[simp] theorem State.yield_key (s : State) (o : ReadOutcome) : (s.yield o).key = s.key := rfl
@[simp] theorem State.yield_decEn (s : State) (o : ReadOutcome) : (s.yield o).decEn = s.decEn := rfl
@[simp] theorem State.yield_timeout (s : State) (o : ReadOutcome) : (s.yield o).timeout = s.timeout := rfl
@[simp] theorem State.yield_debug (s : State) (o : ReadOutcome) : (s.yield o).debug = s.debug := rfl
@[simp] theorem State.yield_cycle (s : State) (o : ReadOutcome) : (s.yield o).cycle = { s.cycle with outcome := some o } := rfl
@[simp] theorem State.yield_pending (s : State) (o : ReadOutcome) : (s.yield o).pending = s.pending := rfl
@[simp] theorem State.yield_toCaller (s : State) (o : ReadOutcome) : (s.yield o).toCaller = s.toCaller := rfl
@[simp] theorem State.yield_wire (s : State) (o : ReadOutcome) : (s.yield o).wire = s.wire := rfl
@[simp] theorem State.yield_diag (s : State) (o : ReadOutcome) : (s.yield o).diag = s.diag := rfl

@[simp] theorem State.returnOutcome_phase (s : State) (o : ReadOutcome) : (s.returnOutcome o).phase = s.phase := rfl
@[simp] theorem State.returnOutcome_key (s : State) (o : ReadOutcome) : (s.returnOutcome o).key = s.key := rfl
@[simp] theorem State.returnOutcome_decEn (s : State) (o : ReadOutcome) : (s.returnOutcome o).decEn = s.decEn := rfl
@[simp] theorem State.returnOutcome_timeout (s : State) (o : ReadOutcome) : (s.returnOutcome o).timeout = s.timeout := rfl
@[simp] theorem State.returnOutcome_debug (s : State) (o : ReadOutcome) : (s.returnOutcome o).debug = s.debug := rfl
@[simp] theorem State.returnOutcome_cycle (s : State) (o : ReadOutcome) : (s.returnOutcome o).cycle = Cycle.empty := rfl
@[simp] theorem State.returnOutcome_pending (s : State) (o : ReadOutcome) : (s.returnOutcome o).pending = s.pending := rfl
@[simp] theorem State.returnOutcome_toCaller (s : State) (o : ReadOutcome) : (s.returnOutcome o).toCaller = s.toCaller ++ [.outcome o] := rfl
@[simp] theorem State.returnOutcome_wire (s : State) (o : ReadOutcome) : (s.returnOutcome o).wire = s.wire := rfl
@[simp] theorem State.returnOutcome_diag (s : State) (o : ReadOutcome) : (s.returnOutcome o).diag = s.diag := rfl

@[simp] theorem State.resetRegisters_phase (s : State) : s.resetRegisters.phase = .closed := rfl
@[simp] theorem State.resetRegisters_key (s : State) : s.resetRegisters.key = Config.keyDefault := rfl
@[simp] theorem State.resetRegisters_decEn (s : State) : s.resetRegisters.decEn = none := rfl
@[simp] theorem State.resetRegisters_timeout (s : State) : s.resetRegisters.timeout = .ms Config.timeoutDefaultMs := rfl
@[simp] theorem State.resetRegisters_debug (s : State) : s.resetRegisters.debug = Config.debugDefault := rfl
@[simp] theorem State.resetRegisters_cycle (s : State) : s.resetRegisters.cycle = Cycle.empty := rfl
@[simp] theorem State.resetRegisters_pending (s : State) : s.resetRegisters.pending = s.pending := rfl
@[simp] theorem State.resetRegisters_toCaller (s : State) : s.resetRegisters.toCaller = s.toCaller := rfl
@[simp] theorem State.resetRegisters_wire (s : State) : s.resetRegisters.wire = s.wire := rfl
@[simp] theorem State.resetRegisters_diag (s : State) : s.resetRegisters.diag = s.diag := rfl

end Sys2Proof.Machine
end

