-- ==== Sys2Proof/Laws/Ops.lean ====
section
/-! SUPPORT. What each shared operation can do, said once: admission, the tap, chaining, and the next states of READ. -/

namespace Sys2Proof.Machine

open Sys2Proof

/-- An admitted command answers what its meaning answers. -/
theorem ifAdmitted_of_admits {c : Command} {s : State} (r : Result) (h : admits c s.phase = true) :
    ifAdmitted c s r = r := by
  simp [ifAdmitted, h]

/-- A command that is not admitted is refused with its name and the phase. -/
theorem ifAdmitted_of_not_admits {c : Command} {s : State} (r : Result) (h : admits c s.phase = false) :
    ifAdmitted c s r = .refused (.notAdmitted c s.phase) := by
  simp [ifAdmitted, h]

/-- A next state comes from an admitted command only. -/
theorem ifAdmitted_next {c : Command} {s t : State} {r : Result} (h : ifAdmitted c s r = .next t) :
    admits c s.phase = true ∧ r = .next t := by
  unfold ifAdmitted at h
  split at h
  · exact ⟨‹_›, h⟩
  · cases h

theorem admits_config {p : Phase} : admits .config p = true ↔ p = .closed := by cases p <;> decide

theorem admits_open {p : Phase} : admits .openSession p = true ↔ p = .closed := by cases p <;> decide

theorem admits_read {p : Phase} : admits .read p = true ↔ p = .opened := by cases p <;> decide

theorem admits_close {p : Phase} : admits .closeSession p = true ↔ p ≠ .closed := by cases p <;> decide

@[simp] theorem andThen_next (s : State) (k : State → Result) : andThen (.next s) k = k s := rfl

@[simp] theorem andThen_fault (e : Fault) (k : State → Result) : andThen (.fault e) k = .fault e := rfl

@[simp] theorem andThen_refused (e : Refusal) (k : State → Result) : andThen (.refused e) k = .refused e := rfl

/-- All that the tap can do: add to the diagnostics. -/
theorem tap_eq (s : State) (bytes : List Byte) (f : Option Frame) (o : ReadOutcome) :
    s.tap bytes f o =
      { s with diag := s.diag ++
          (if s.debug && o != .endOfSequence then [.tap bytes.length bytes f o] else []) } := by
  unfold State.tap
  split <;> simp_all [State.note]

/-- All that the end of a READ does. -/
theorem finishRead_eq (s : State) (bytes : List Byte) (f : Option Frame) (o : ReadOutcome) :
    s.finishRead bytes f o =
      { s with
        cycle := Cycle.empty
        toCaller := s.toCaller ++ [.outcome o]
        diag := s.diag ++
          (if s.debug && o != .endOfSequence then [.tap bytes.length bytes f o] else []) } := by
  simp [State.finishRead, tap_eq, State.returnOutcome, State.setCycle, State.respond]

/-- All that OPEN with a handle does. -/
theorem openWith_eq (s : State) (fw : Nat) (feat : WriteAnswer) :
    s.openWith fw feat =
      { s with
        phase := .opened
        decEn := some (decodeEnabled fw)
        wire := s.wire ++ [.transportOpen Config.vendorId Config.productId true, .releaseQuery fw,
          .featureWrite (featureReport s.key) feat]
        diag := s.diag ++ (if feat = .err then [.featureWriteFailed] else [])
        toCaller := s.toCaller ++ [.ok] } := by
  cases feat <;>
    simp [State.openWith, State.call, State.setDecEn, State.note, State.setPhase, State.respond]

/-- The next states of the cycle after the call: the sequence ends, or one event is returned. -/
theorem processAnswer_next {s t : State} {a : ReadAnswer} (h : s.processAnswer a = .next t) :
    (a = .ioerr ∧ t = (s.setPhase .ended).finishRead [] none .endOfSequence) ∨
    (∃ bytes f e, a = .ok bytes ∧ t = s.finishRead bytes f (.event e)) := by
  cases a with
  | ioerr =>
    left
    simp only [State.processAnswer, ioOk, if_true, Host.Outcome.next.injEq] at h
    exact ⟨rfl, h.symm⟩
  | ok bytes =>
    right
    cases hl : lenOk bytes.length <;> cases hd : s.decEn <;>
      simp only [State.processAnswer, ioOk, countOf, bytesOf, hl, hd, Bool.true_eq_false, if_false, if_true] at h <;>
      cases h <;> exact ⟨bytes, _, _, rfl, rfl⟩

/-- A whole number of milliseconds is taken as it stands (R121). -/
@[simp] theorem wholeMs_natCast (n : Nat) : wholeMs (n : Rat) = n := by
  simp [wholeMs]

/-- All that converting a duration can do: it gives one of the two whole numbers beside it. -/
theorem wholeMs_floor {d : Rat} (h : 0 ≤ d) : wholeMs d = ⌊d⌋₊ ∨ wholeMs d = ⌊d⌋₊ + 1 := by
  have hn : 0 ≤ d.num := Rat.num_nonneg.2 h
  have hf : ⌊d⌋₊ = d.num.toNat / d.den := by
    rw [← Int.floor_toNat, Rat.floor_def']
    obtain ⟨k, hk⟩ := Int.eq_ofNat_of_zero_le hn
    rw [hk]
    norm_cast
  unfold wholeMs
  split
  · exact .inr (by rw [hf])
  · exact .inl (by rw [hf, Nat.add_zero])

end Sys2Proof.Machine
end

