-- ==== Sys2Proof/Laws/Exec.lean ====
section
/-! SUPPORT. One inversion of exec: what a next state can differ in, by the operation that ran. -/

namespace Sys2Proof.Machine

open Sys2Proof

/-- Only working values and diagnostics may differ. -/
def Quiet (s t : State) : Prop :=
  sameRegisters s t ∧ t.wire = s.wire ∧ t.toCaller = s.toCaller ∧ t.pending = s.pending

/-- Everything exec can do to the registers and the boundary when it answers a next state. -/
inductive Effect (s t : State) : Instr → Prop where
  | quiet (i : Instr) (hc : isCommand i = false) (hi : i ≠ .iochk .ioerr) (hr : ∀ rx, i ≠ .recv rx) (h : Quiet s t) : Effect s t i
  | configKey (k : Key) (hp : s.phase = .closed) (h : t = (s.setKey k).respond .ok) : Effect s t (.configKey k)
  | configDebug (d : Bool) (hp : s.phase = .closed) (h : t = (s.setDebug d).respond .ok) : Effect s t (.configDebug d)
  | configTimeout (d : TimeoutSetting) (τ : Timeout) (hp : s.phase = .closed) (hd : timeoutOf d = some τ)
      (h : t = (s.setTimeout τ).respond .ok) : Effect s t (.configTimeout d)
  | timeoutRejected (d : TimeoutSetting) (hp : s.phase = .closed) (hd : timeoutOf d = none)
      (h : t = s.respond .invalidTimeout) : Effect s t (.configTimeout d)
  | openFails (hp : s.phase = .closed)
      (h : t = (s.call (.transportOpen Config.vendorId Config.productId false)).respond .transportError) :
      Effect s t (.openSession .err)
  | opens (fw : Nat) (feat : WriteAnswer) (hp : s.phase = .closed) (h : t = s.openWith fw feat) :
      Effect s t (.openSession (.ok fw feat))
  | closes (hp : s.phase ≠ .closed) (h : t = (s.call .transportRelease).resetRegisters.respond .ok) :
      Effect s t .closeSession
  | readEnds (hp : s.phase = .opened)
      (h : t = ((s.call (.transportRead s.timeout .ioerr)).setPhase .ended).finishRead [] none .endOfSequence) :
      Effect s t (.readOne (.answered .ioerr))
  | readEvent (bytes : List Byte) (f : Option Frame) (e : Event) (hp : s.phase = .opened)
      (h : t = (s.call (.transportRead s.timeout (.ok bytes))).finishRead bytes f (.event e)) :
      Effect s t (.readOne (.answered (.ok bytes)))
  | receives (a : ReadAnswer) (hp : s.phase = .opened) (h : t = s.receive a) : Effect s t (.recv (.answered a))
  | ends (hp : s.phase = .opened) (h : t.phase = .ended) (hc : sameConfiguration s t) (hw : t.wire = s.wire)
      (hr : t.toCaller = s.toCaller) (hq : t.pending = s.pending) : Effect s t (.iochk .ioerr)

theorem quiet_setCycle (s : State) (c : Cycle) : Quiet s (s.setCycle c) := by
  simp [Quiet, sameRegisters, sameConfiguration]

theorem quiet_yield (s : State) (o : ReadOutcome) : Quiet s (s.yield o) := quiet_setCycle _ _

theorem quiet_setCycle_yield (s : State) (c : Cycle) (o : ReadOutcome) : Quiet s ((s.setCycle c).yield o) := by
  simp [Quiet, sameRegisters, sameConfiguration]

theorem quiet_selectFrame (s : State) (b : Bool) (raw : Frame) : Quiet s (s.selectFrame b raw) := by
  cases b <;> simp [State.selectFrame, State.runDecryptor, Quiet, sameRegisters, sameConfiguration]

theorem quiet_tap (s : State) (bytes : List Byte) (f : Option Frame) (o : ReadOutcome) : Quiet s (s.tap bytes f o) := by
  simp [tap_eq, Quiet, sameRegisters, sameConfiguration]

/-- The inversion of exec. -/
theorem exec_effect {i : Instr} {s t : State} (h : exec i s = .next t) : Effect s t i := by
  cases i with
  | configKey k =>
    obtain ⟨ha, h⟩ := ifAdmitted_next h
    cases h; exact .configKey k (admits_config.1 ha) rfl
  | configDebug d =>
    obtain ⟨ha, h⟩ := ifAdmitted_next h
    cases h; exact .configDebug d (admits_config.1 ha) rfl
  | configTimeout d =>
    obtain ⟨ha, h⟩ := ifAdmitted_next h
    split at h <;> cases h
    · exact .configTimeout d _ (admits_config.1 ha) ‹_› rfl
    · exact .timeoutRejected d (admits_config.1 ha) ‹_› rfl
  | openSession r =>
    obtain ⟨ha, h⟩ := ifAdmitted_next h
    cases r with
    | err => cases h; exact .openFails (admits_open.1 ha) rfl
    | ok fw feat => cases h; exact .opens fw feat (admits_open.1 ha) rfl
  | closeSession =>
    obtain ⟨ha, h⟩ := ifAdmitted_next h
    cases h; exact .closes (admits_close.1 ha) rfl
  | readOne rx =>
    obtain ⟨ha, h⟩ := ifAdmitted_next h
    cases rx with
    | never => cases h
    | answered a =>
      obtain ⟨rfl, rfl⟩ | ⟨bytes, f, e, rfl, rfl⟩ := processAnswer_next h
      · exact .readEnds (admits_read.1 ha) rfl
      · exact .readEvent bytes f e (admits_read.1 ha) rfl
  | recv rx =>
    obtain ⟨ha, h⟩ := ifAdmitted_next h
    cases rx with
    | never => cases h
    | answered a => cases h; exact .receives a (admits_read.1 ha) rfl
  | iochk a =>
    obtain ⟨ha, h⟩ := ifAdmitted_next h
    cases a with
    | ioerr => cases h; exact .ends (admits_read.1 ha) rfl ⟨rfl, rfl, rfl, rfl⟩ rfl rfl rfl
    | ok bytes => cases h; exact .quiet _ rfl (by simp) (by simp) (quiet_setCycle _ _)
  | lenchk n =>
    refine .quiet _ rfl (by simp) (by simp) ?_
    simp only [exec, execLenchk] at h
    split at h <;> cases h
    · exact quiet_setCycle _ _
    · exact quiet_setCycle_yield _ _ _
  | decsel raw =>
    refine .quiet _ rfl (by simp) (by simp) ?_
    simp only [exec, execDecsel] at h
    split at h <;> cases h
    exact quiet_selectFrame _ _ _
  | perm raw => cases h; exact .quiet _ rfl (by simp) (by simp) (quiet_setCycle _ _)
  | xork p => cases h; exact .quiet _ rfl (by simp) (by simp) (quiet_setCycle _ _)
  | rotr3 x => cases h; exact .quiet _ rfl (by simp) (by simp) (quiet_setCycle _ _)
  | unmask r => cases h; exact .quiet _ rfl (by simp) (by simp) (quiet_setCycle _ _)
  | decrypt raw => cases h; exact .quiet _ rfl (by simp) (by simp) (quiet_setCycle _ _)
  | markchk f =>
    refine .quiet _ rfl (by simp) (by simp) ?_
    simp only [exec, execMarkchk] at h
    split at h <;> cases h
    · exact quiet_setCycle _ _
    · exact quiet_setCycle_yield _ _ _
  | sumchk f =>
    refine .quiet _ rfl (by simp) (by simp) ?_
    simp only [exec, execSumchk] at h
    split at h <;> cases h
    · exact quiet_setCycle _ _
    · exact quiet_setCycle_yield _ _ _
  | value hi lo => cases h; exact .quiet _ rfl (by simp) (by simp) (quiet_setCycle _ _)
  | dispatch code => cases h; exact .quiet _ rfl (by simp) (by simp) (quiet_setCycle _ _)
  | clsHum v pad => cases h; exact .quiet _ rfl (by simp) (by simp) (quiet_yield _ _)
  | clsTemp v pad => cases h; exact .quiet _ rfl (by simp) (by simp) (quiet_yield _ _)
  | clsCo2 v pad => cases h; exact .quiet _ rfl (by simp) (by simp) (quiet_yield _ _)
  | clsUnk f => cases h; exact .quiet _ rfl (by simp) (by simp) (quiet_yield _ _)
  | dbgtap bytes f o => cases h; exact .quiet _ rfl (by simp) (by simp) (quiet_tap _ _ _ _)

/-- A step that answers a next state waits, or runs one operation on the state without its request. -/
theorem step_next {s t : State} (h : step s = .next t) :
    t = s ∨ ∃ i q rest, s.pending = q :: rest ∧ exec i (s.setPending rest) = .next t := by
  unfold step at h
  split at h
  · cases h; exact .inl rfl
  · split at h
    · exact .inr ⟨_, _, _, ‹_›, h⟩
    · cases h
  · split at h
    · exact .inr ⟨_, _, _, ‹_›, h⟩
    · cases h

end Sys2Proof.Machine
end

