-- ==== Sys2Proof/Laws/PerInstr.lean ====
section
/-! SUPPORT. Statements made once per constructor of Instr. -/

namespace Sys2Proof.Laws.TableRow

open Sys2Proof Sys2Proof.Machine

/-- The frame that encodes a well-formed operation carries the bits its row fixes in spec/opcode_table.json (R77, R81). -/
def Statement (i : Instr) : Prop := ∀ f, i.wellFormed = true → encode i = some f → f.word &&& tableMask i = tableMatch i

/-- The rows whose mask is all zeros: no frame bit selects them. -/
theorem of_zero_mask {i : Instr} (hm : tableMask i = 0) (hc : tableMatch i = 0) : Statement i := by
  intro f _ _
  rw [hm, hc]; exact BitVec.and_zero

/-- A masked byte equation holds where the frame has the code and the marker. -/
theorem masked {f : Frame} {m c : Frame} (h : ∀ i, f.get i &&& m.get i = c.get i) : f.word &&& m.word = c.word :=
  (Frame.word_and_eq f m c).2 h

/-- The frame of a code in the table carries the code and the marker. -/
theorem frameOf_row (code : Byte) (v : BitVec 16) (pad : Pad) :
    (frameOf code v pad).word &&& Frame.word ⟨0xFF, 0, 0, 0, 0xFF, 0, 0, 0⟩ =
      Frame.word ⟨code, 0, 0, 0, 0x0D, 0, 0, 0⟩ := by
  refine masked fun i => ?_
  fin_cases i <;> simp [Frame.get, frameOf, Config.marker]
  exact BitVec.and_allOnes

theorem configKey (k : Key) : Statement (.configKey k) := of_zero_mask rfl rfl
theorem configDebug (d : Bool) : Statement (.configDebug d) := of_zero_mask rfl rfl
theorem configTimeout (t : TimeoutSetting) : Statement (.configTimeout t) := of_zero_mask rfl rfl
theorem openSession (r : OpenReply) : Statement (.openSession r) := of_zero_mask rfl rfl
theorem closeSession : Statement .closeSession := of_zero_mask rfl rfl
theorem readOne (rx : ReadReply) : Statement (.readOne rx) := of_zero_mask rfl rfl
theorem recv (rx : ReadReply) : Statement (.recv rx) := of_zero_mask rfl rfl
theorem iochk (a : ReadAnswer) : Statement (.iochk a) := of_zero_mask rfl rfl
theorem lenchk (n : Nat) : Statement (.lenchk n) := of_zero_mask rfl rfl
theorem decsel (raw : Frame) : Statement (.decsel raw) := of_zero_mask rfl rfl
theorem perm (raw : Frame) : Statement (.perm raw) := of_zero_mask rfl rfl
theorem xork (p : Frame) : Statement (.xork p) := of_zero_mask rfl rfl
theorem rotr3 (x : Frame) : Statement (.rotr3 x) := of_zero_mask rfl rfl
theorem unmask (r : Frame) : Statement (.unmask r) := of_zero_mask rfl rfl
theorem decrypt (raw : Frame) : Statement (.decrypt raw) := of_zero_mask rfl rfl
theorem markchk (f : Frame) : Statement (.markchk f) := of_zero_mask rfl rfl
theorem sumchk (f : Frame) : Statement (.sumchk f) := of_zero_mask rfl rfl
theorem value (hi lo : Byte) : Statement (.value hi lo) := of_zero_mask rfl rfl
theorem dispatch (code : Byte) : Statement (.dispatch code) := of_zero_mask rfl rfl

theorem clsHum (v : BitVec 16) (pad : Pad) : Statement (.clsHum v pad) := by
  intro f _ h; cases h; exact frameOf_row _ v pad

theorem clsTemp (v : BitVec 16) (pad : Pad) : Statement (.clsTemp v pad) := by
  intro f _ h; cases h; exact frameOf_row _ v pad

theorem clsCo2 (v : BitVec 16) (pad : Pad) : Statement (.clsCo2 v pad) := by
  intro f _ h; cases h; exact frameOf_row _ v pad

theorem clsUnk (f : Frame) : Statement (.clsUnk f) := by
  intro g hw h; cases h
  have hm : f.b4 = 0x0D := by
    simp only [Instr.wellFormed, Bool.and_eq_true, markOk] at hw
    exact eq_of_beq hw.1.1
  refine masked (m := ⟨0, 0, 0, 0, 0xFF, 0, 0, 0⟩) (c := ⟨0, 0, 0, 0, 0x0D, 0, 0, 0⟩) fun i => ?_
  fin_cases i <;> simp [Frame.get, hm]

theorem dbgtap (bytes : List Byte) (f : Option Frame) (o : ReadOutcome) : Statement (.dbgtap bytes f o) :=
  of_zero_mask rfl rfl

end Sys2Proof.Laws.TableRow
end

