-- ==== Sys2Proof/Tests/Slice0.lean ====
section
/-! SUPPORT. The model's own tests (expected values from spec/95_test_vectors.md, named by row), the smoke test of WellFormed, and a
witness for the hypotheses of each statement. -/

namespace Sys2Proof.Tests

open Sys2Proof Sys2Proof.Machine

/-- K of spec/95_test_vectors.md. -/
def scenarioKey : Key := ⟨0x62, 0xea, 0x1d, 0x4f, 0x14, 0xfa, 0xe5, 0x6c⟩

/-- The state one OPEN with release number `fw` leaves, with the key K. -/
def inSession (fw : Nat) : State :=
  { State.reset with
    phase := .opened
    key := scenarioKey
    decEn := some (decide (fw ≤ 256))
    wire := [.transportOpen 1 2 true, .releaseQuery fw, .featureWrite (0x00 :: scenarioKey.toBytes) .ok] }

/-- The same session after a read has failed. -/
def ended : State := { inSession 256 with phase := .ended }

def nextOf (r : Result) : Option State :=
  match r with
  | .next s => some s
  | .fault _ => none
  | .refused _ => none

/-- The working values a stage leaves. -/
def cycleOf (r : Result) : Option Cycle := (nextOf r).map (·.cycle)

/-- What the caller has got. -/
def answersOf (r : Result) : Option (List Response) := (nextOf r).map (·.toCaller)

/-! ### WellFormed refuses ill-formed terms -/

theorem test_wf_unknown_code_bad_marker : (Instr.clsUnk ⟨0x6d, 0x0b, 0x2c, 0xa4, 0x0c, 0, 0, 0⟩).wellFormed = false := by decide

theorem test_wf_unknown_code_bad_sum : (Instr.clsUnk ⟨0x6d, 0x0b, 0x2c, 0xa5, 0x0d, 0, 0, 0⟩).wellFormed = false := by decide

theorem test_wf_unknown_code_known : (Instr.clsUnk ⟨0x41, 0x00, 0x00, 0x41, 0x0d, 0, 0, 0⟩).wellFormed = false := by decide

theorem test_wf_tap_frame_of_short_read :
    (Instr.dbgtap [1, 2, 3, 4, 5, 6, 7] (some ⟨0, 0, 0, 0, 0, 0, 0, 0⟩) (.event .wrongPacket)).wellFormed = false := by decide

theorem test_wf_unknown_code : (Instr.clsUnk ⟨0x6d, 0x0b, 0x2c, 0xa4, 0x0d, 0x11, 0x22, 0x33⟩).wellFormed = true := by decide

theorem test_step_refuses_ill_formed :
    step { State.reset with pending := [.operation (.clsUnk ⟨0x41, 0x00, 0x00, 0x41, 0x0d, 0, 0, 0⟩)] } =
      .refused .illFormed := rfl

/-! ### Decoding: frames written out from R72 and R77 -/

/-- V-MRK 3: all eight bits of the marker are compared. -/
theorem test_decode_markchk :
    decode [0x50, 0x01, 0xa1, 0xf2, 0x8d, 0, 0, 0] = .ok (.markchk ⟨0x50, 0x01, 0xa1, 0xf2, 0x8d, 0, 0, 0⟩) := rfl

/-- V-SUM 7, the source's printed frame. -/
theorem test_decode_sumchk :
    decode [0x42, 0x10, 0x64, 0x76, 0x0d, 0, 0, 0] = .ok (.sumchk ⟨0x42, 0x10, 0x64, 0x76, 0x0d, 0, 0, 0⟩) := rfl

/-- V-PRI 2: marker and checksum both wrong. -/
theorem test_decode_marker_first :
    decode [0x50, 0x01, 0xa1, 0xf3, 0x0e, 0, 0, 0] = .ok (.markchk ⟨0x50, 0x01, 0xa1, 0xf3, 0x0e, 0, 0, 0⟩) := rfl

/-- V-CLS 2. -/
theorem test_decode_hum : decode [0x41, 0x11, 0xd7, 0x29, 0x0d, 0, 0, 0] = .ok (.clsHum 4567 ⟨0, 0, 0⟩) := rfl

/-- V-CLS 7. -/
theorem test_decode_temp : decode [0x42, 0x11, 0x12, 0x65, 0x0d, 0, 0, 0] = .ok (.clsTemp 4370 ⟨0, 0, 0⟩) := rfl

/-- V-CLS 13: the bytes of 3000 the wrong way round are not 3000. -/
theorem test_decode_co2 : decode [0x50, 0xb8, 0x0b, 0x13, 0x0d, 0, 0, 0] = .ok (.clsCo2 47115 ⟨0, 0, 0⟩) := rfl

/-- V-CLS 27: 0x41 with bit 7 set is another code. -/
theorem test_decode_unk :
    decode [0xc1, 0x00, 0x00, 0xc1, 0x0d, 0, 0, 0] = .ok (.clsUnk ⟨0xc1, 0x00, 0x00, 0xc1, 0x0d, 0, 0, 0⟩) := rfl

/-- R79, by name. -/
theorem test_decode_wrong_length :
    decode [0x41, 0x11, 0xd7, 0x29, 0x0d, 0, 0] = .error (.wrongLength 7) ∧
    decode [0x41, 0x11, 0xd7, 0x29, 0x0d, 0, 0, 0, 0] = .error (.wrongLength 9) ∧
    decode [] = .error (.wrongLength 0) := ⟨rfl, rfl, rfl⟩

/-- V-CLS 3: the encoder puts value, checksum, marker and pad where R72 has them. -/
theorem test_encode_hum :
    encode (.clsHum 10000 ⟨0xde, 0xad, 0xbe⟩) = some ⟨0x41, 0x27, 0x10, 0x78, 0x0d, 0xde, 0xad, 0xbe⟩ := by decide

/-- The table's row CLS.UNK as its match stands: code 0, value 0, checksum 0 (V-SUM 6). -/
theorem test_table_word_unk :
    decodeTableWord 64 0x000000000D000000 = some (.clsUnk ⟨0, 0, 0, 0, 0x0d, 0, 0, 0⟩) ∧
    decodeTableWord 32 0x0D000000 = some (.clsUnk ⟨0, 0, 0, 0, 0x0d, 0, 0, 0⟩) := by decide

/-- The rows of the three codes with their checksum filled in (R81's `constraint`). -/
theorem test_table_word_codes :
    decodeTableWord 64 0x410000410D000000 = some (.clsHum 0 ⟨0, 0, 0⟩) ∧
    decodeTableWord 64 0x420000420D000000 = some (.clsTemp 0 ⟨0, 0, 0⟩) ∧
    decodeTableWord 64 0x500000500D000000 = some (.clsCo2 0 ⟨0, 0, 0⟩) := by decide

/-- Their match words alone have a wrong checksum, and SUMCHK has the higher priority (R81). -/
theorem test_table_word_without_checksum :
    decodeTableWord 64 0x410000000D000000 = some (.sumchk ⟨0x41, 0, 0, 0, 0x0d, 0, 0, 0⟩) := by decide

/-- V-CLS 6, fetched and run from reset. -/
theorem test_fetch_word_runs :
    cycleOf (step (State.reset.withFetchWord 64 0x421064b60d000000)) =
      some { Cycle.empty with outcome := some (.event (.ambientTemperature 4196)) } := by decide

/-! ### The session commands -/

/-- V-CFG 1. -/
theorem test_config_key : (nextOf (exec (.configKey scenarioKey) State.reset)).map (·.key) = some scenarioKey := by decide

/-- V-CFG 8. -/
theorem test_config_key_refused : exec (.configKey scenarioKey) (inSession 256) = .refused (.notAdmitted .config .opened) := rfl

/-- P4 line 1. -/
theorem test_config_debug : (nextOf (exec (.configDebug true) State.reset)).map (·.debug) = some true := by decide

/-- V-CFG 3. -/
theorem test_config_timeout_none :
    (nextOf (exec (.configTimeout .none) State.reset)).map (·.timeout) = some .block := by decide

/-- V-CFG 5. -/
theorem test_config_timeout_negative :
    (nextOf (exec (.configTimeout (.duration (-1))) State.reset)).map (fun s => (s.timeout, s.toCaller)) =
      some (.ms 5000, [.invalidTimeout]) := by decide

/-- V-OPEN 3 and 4: the boundary of the release number. -/
theorem test_open_release_boundary :
    (nextOf (exec (.openSession (.ok 0x0100 .ok)) State.reset)).map (·.decEn) = some (some true) ∧
    (nextOf (exec (.openSession (.ok 0x0101 .err)) State.reset)).map (·.decEn) = some (some false) := by decide

/-- P1 line 3, the nine bytes on the wire, and P3 line 4, a failed OPEN. -/
theorem test_open_report_and_failure :
    (nextOf (exec (.openSession (.ok 0x0100 .ok)) { State.reset with key := scenarioKey })).map (fun s => s.wire.getLast?) =
      some (some (.featureWrite [0x00, 0x62, 0xea, 0x1d, 0x4f, 0x14, 0xfa, 0xe5, 0x6c] .ok)) ∧
    (nextOf (exec (.openSession .err) State.reset)).map (fun s => (s.phase, s.toCaller)) =
      some (.closed, [.transportError]) := by decide

/-- V-CFG 10: CLOSE from ENDED leaves the reset registers. -/
theorem test_close :
    (nextOf (exec .closeSession ended)).map (fun s => (s.phase, s.key, s.decEn, s.timeout, s.debug)) =
      some (.closed, ⟨0, 0, 0, 0, 0, 0, 0, 0⟩, none, .ms 5000, false) := by decide

/-- V-CFG 7. -/
theorem test_close_refused : exec .closeSession State.reset = .refused (.notAdmitted .closeSession .closed) := rfl

/-! ### READ -/

/-- P1 line 4 (V-MODE 1) and V-MODE 2, the same report in both modes. -/
theorem test_read_both_modes :
    answersOf (exec (.readOne (.answered (.ok [0xc9, 0xb0, 0x50, 0xda, 0x57, 0x7f, 0x66, 0x2f]))) (inSession 256)) =
      some [.outcome (.event (.ambientTemperature 4196))] ∧
    answersOf (exec (.readOne (.answered (.ok [0xc9, 0xb0, 0x50, 0xda, 0x57, 0x7f, 0x66, 0x2f]))) (inSession 257)) =
      some [.outcome (.event (.unexpectedData ⟨0xc9, 0xb0, 0x50, 0xda, 0x57, 0x7f, 0x66, 0x2f⟩))] := by decide

/-- V-LEN 5 and V-LEN 1. -/
theorem test_read_short_and_failed :
    answersOf (exec (.readOne (.answered (.ok [0x41, 0x11, 0xd7, 0x29, 0x0d, 0, 0]))) (inSession 257)) =
      some [.outcome (.event .wrongPacket)] ∧
    (nextOf (exec (.readOne (.answered .ioerr)) (inSession 257))).map (fun s => (s.phase, s.toCaller)) =
      some (.ended, [.outcome .endOfSequence]) := by decide

/-! ### The stages of a read cycle -/

/-- R140: RAW is defined only when N = 8. -/
theorem test_recv :
    cycleOf (exec (.recv (.answered (.ok [0xc9, 0xb0, 0x50, 0xda, 0x57, 0x7f, 0x66, 0x2f]))) (inSession 256)) =
      some { Cycle.empty with n := some 8, raw := some ⟨0xc9, 0xb0, 0x50, 0xda, 0x57, 0x7f, 0x66, 0x2f⟩ } ∧
    cycleOf (exec (.recv (.answered (.ok [1, 2, 3, 4, 5, 6, 7]))) (inSession 256)) =
      some { Cycle.empty with n := some 7 } := by decide

/-- R141. -/
theorem test_iochk :
    (nextOf (exec (.iochk .ioerr) (inSession 256))).map (fun s => (s.phase, s.cycle.outcome)) =
      some (.ended, some .endOfSequence) ∧
    (nextOf (exec (.iochk (.ok [])) (inSession 256))).map (fun s => (s.phase, s.cycle.outcome)) =
      some (.opened, none) := by decide

/-- V-LEN 4, 6 and 7. -/
theorem test_lenchk :
    (cycleOf (exec (.lenchk 7) (inSession 256))).map (·.outcome) = some (some (.event .wrongPacket)) ∧
    (cycleOf (exec (.lenchk 9) (inSession 256))).map (·.outcome) = some (some (.event .wrongPacket)) ∧
    (cycleOf (exec (.lenchk 8) (inSession 256))).map (·.outcome) = some none := by decide

/-- V-MODE 1 and 2. -/
theorem test_decsel :
    (cycleOf (exec (.decsel ⟨0xc9, 0xb0, 0x50, 0xda, 0x57, 0x7f, 0x66, 0x2f⟩) (inSession 256))).map (·.f) =
      some (some ⟨0x42, 0x10, 0x64, 0xb6, 0x0d, 0, 0, 0⟩) ∧
    (cycleOf (exec (.decsel ⟨0xc9, 0xb0, 0x50, 0xda, 0x57, 0x7f, 0x66, 0x2f⟩) (inSession 257))).map (·.f) =
      some (some ⟨0xc9, 0xb0, 0x50, 0xda, 0x57, 0x7f, 0x66, 0x2f⟩) := by decide

/-- V-PERM 1. -/
theorem test_perm : cycleOf (exec (.perm ⟨0, 1, 2, 3, 4, 5, 6, 7⟩) State.reset) =
    some { Cycle.empty with p := some ⟨2, 4, 0, 7, 1, 6, 5, 3⟩ } := by decide

/-- V-XORK 1. -/
theorem test_xork : cycleOf (exec (.xork ⟨0x45, 0x89, 0x01, 0xef, 0x23, 0xcd, 0xab, 0x67⟩) (inSession 256)) =
    some { Cycle.empty with x := some ⟨0x27, 0x63, 0x1c, 0xa0, 0x37, 0x37, 0x4e, 0x0b⟩ } := by decide

/-- V-ROT 10 and 7. -/
theorem test_rotr3 :
    cycleOf (exec (.rotr3 ⟨0x12, 0x34, 0x56, 0x78, 0x9a, 0xbc, 0xde, 0xf0⟩) State.reset) =
      some { Cycle.empty with r := some ⟨0x02, 0x46, 0x8a, 0xcf, 0x13, 0x57, 0x9b, 0xde⟩ } ∧
    cycleOf (exec (.rotr3 ⟨0x80, 0, 0, 0, 0, 0, 0, 0x01⟩) State.reset) =
      some { Cycle.empty with r := some ⟨0x30, 0, 0, 0, 0, 0, 0, 0⟩ } := by decide

/-- V-UNM 4: no borrow crosses a byte. -/
theorem test_unmask : cycleOf (exec (.unmask ⟨0x83, 0x48, 0x55, 0xd7, 0x06, 0x94, 0x92, 0x57⟩) State.reset) =
    some { Cycle.empty with d := some ⟨0xff, 0x01, 0xff, 0x01, 0xff, 0x01, 0xff, 0x01⟩ } := by decide

/-- The table of R31. -/
theorem test_mask : (List.finRange 8).map maskAt = [0x84, 0x47, 0x56, 0xd6, 0x07, 0x93, 0x93, 0x56] := by decide

/-- V-DEC 7, every stage. -/
theorem test_decrypt : cycleOf (exec (.decrypt ⟨0, 0, 0, 0, 0, 0, 0, 0⟩) (inSession 256)) =
    some { Cycle.empty with
      p := some ⟨0, 0, 0, 0, 0, 0, 0, 0⟩
      x := some ⟨0x62, 0xea, 0x1d, 0x4f, 0x14, 0xfa, 0xe5, 0x6c⟩
      r := some ⟨0x8c, 0x5d, 0x43, 0xa9, 0xe2, 0x9f, 0x5c, 0xad⟩
      d := some ⟨0x08, 0x16, 0xed, 0xd3, 0xdb, 0x0c, 0xc9, 0x57⟩ } := by decide

/-- V-MRK 4 and 5. -/
theorem test_markchk :
    (cycleOf (exec (.markchk ⟨0x50, 0x01, 0xa1, 0xf2, 0xd0, 0, 0, 0⟩) (inSession 256))).map (·.outcome) =
      some (some (.event (.unexpectedData ⟨0x50, 0x01, 0xa1, 0xf2, 0xd0, 0, 0, 0⟩))) ∧
    (cycleOf (exec (.markchk ⟨0x50, 0x01, 0xa1, 0xf2, 0x0d, 0, 0, 0⟩) (inSession 256))).map (·.outcome) = some none := by decide

/-- V-SUM 4 (the sum wraps twice) and 2. -/
theorem test_sumchk :
    cycleOf (exec (.sumchk ⟨0x50, 0xd8, 0xff, 0x27, 0x0d, 0, 0, 0⟩) (inSession 256)) =
      some { Cycle.empty with sum := some 0x27, sumOk := some true } ∧
    cycleOf (exec (.sumchk ⟨0x50, 0x01, 0xa1, 0xf3, 0x0d, 0, 0, 0⟩) (inSession 256)) =
      some { Cycle.empty with sum := some 0xf2, sumOk := some false, outcome := some (.event .checksumError) } := by decide

/-- R160: `b8 0b` gives 47115. -/
theorem test_value : (cycleOf (exec (.value 0xb8 0x0b) (inSession 256))).map (·.v) = some (some 47115) := by decide

/-- R165: 0x50 and, one above it, 0x51. -/
theorem test_dispatch :
    (cycleOf (exec (.dispatch 0x50) (inSession 256))).map (·.selected) = some (some .co2) ∧
    (cycleOf (exec (.dispatch 0x51) (inSession 256))).map (·.selected) = some (some .unk) := by decide

/-- V-CLS 2: 45.67. -/
theorem test_cls_hum :
    (cycleOf (exec (.clsHum 4567 ⟨0, 0, 0⟩) (inSession 256))).map (·.outcome) = some (some (.event (.humidity 4567))) ∧
    eventNumber (.humidity 4567) = some (4567 / 100) := ⟨by decide, rfl⟩

/-- V-CLS 7: -0.025, the largest negative. -/
theorem test_cls_temp :
    (cycleOf (exec (.clsTemp 4370 ⟨0, 0, 0⟩) (inSession 256))).map (·.outcome) =
      some (some (.event (.ambientTemperature 4370))) ∧
    eventNumber (.ambientTemperature 4370) = some (-25 / 1000) := by
  refine ⟨by decide, congrArg some ?_⟩
  show ((4370 : Nat) : Rat) / 16 - 27315 / 100 = -25 / 1000
  norm_num

/-- V-CLS 15 and 16. -/
theorem test_cls_co2 :
    (cycleOf (exec (.clsCo2 3000 ⟨0, 0, 0⟩) (inSession 256))).map (·.outcome) =
      some (some (.event (.relativeConcentration 3000))) ∧
    (cycleOf (exec (.clsCo2 3001 ⟨0, 0, 0⟩) (inSession 256))).map (·.outcome) =
      some (some (.event .uninitializedData)) := by decide

/-- V-CLS 21. -/
theorem test_cls_unk :
    (cycleOf (exec (.clsUnk ⟨0x6d, 0x0b, 0x2c, 0xa4, 0x0d, 0x11, 0x22, 0x33⟩) (inSession 256))).map (·.outcome) =
      some (some (.event (.unknownCode ⟨0x6d, 0x0b, 0x2c, 0xa4, 0x0d, 0x11, 0x22, 0x33⟩))) := by decide

/-- R183: a short read is surfaced, NONE is not. -/
theorem test_dbgtap :
    (nextOf (exec (.dbgtap [7, 8] none (.event .wrongPacket)) { inSession 256 with debug := true })).map (·.diag) =
      some [.tap 2 [7, 8] none (.event .wrongPacket)] ∧
    (nextOf (exec (.dbgtap [] none .endOfSequence) { inSession 256 with debug := true })).map (·.diag) = some [] := by decide

/-- P1: the tags of its events in order (R74). -/
theorem test_tags :
    [Event.ambientTemperature 4196, .humidity 4567, .relativeConcentration 417, .wrongPacket, .checksumError,
      .uninitializedData].map eventTag = [0, 2, 1, 4, 5, 6] := by decide

/-! ### Witnesses: for each statement with hypotheses, a state and operands that meet them -/

theorem test_witness_StepRunsTheOldestRequest :
    State.reset.pending = [] ∧ Instr.closeSession.wellFormed = true ∧
    { State.reset with pending := [.operation .closeSession] }.pending = .operation .closeSession :: [] ∧
    decode [0x41, 0x11, 0xd7, 0x29, 0x0d, 0, 0, 0] = .ok (.clsHum 4567 ⟨0, 0, 0⟩) ∧
    decode [0x41] = .error (.wrongLength 1) ∧
    step { State.reset with pending := [.frame [0x41]] } = .refused (.undecodable (.wrongLength 1)) :=
  ⟨rfl, rfl, rfl, rfl, rfl, rfl⟩

/-- One frame for each row of R77; the last row at the codes beside 0x41, 0x42 and 0x50 (V-CLS 23, 24, 25, 26). -/
theorem test_witness_FrameSelectsByMatchAndMask :
    decodeFrame ⟨0x41, 0, 0, 0x41, 0x0c, 0, 0, 0⟩ = .markchk ⟨0x41, 0, 0, 0x41, 0x0c, 0, 0, 0⟩ ∧
    decodeFrame ⟨0x41, 0, 0, 0x40, 0x0d, 0, 0, 0⟩ = .sumchk ⟨0x41, 0, 0, 0x40, 0x0d, 0, 0, 0⟩ ∧
    (⟨0x41, 0, 0, 0x41, 0x0d, 0, 0, 0⟩ : Frame).word &&& 0xFF000000FF000000#64 = 0x410000000D000000#64 ∧
    (⟨0x42, 0, 0, 0x42, 0x0d, 0, 0, 0⟩ : Frame).word &&& 0xFF000000FF000000#64 = 0x420000000D000000#64 ∧
    (⟨0x50, 0, 0, 0x50, 0x0d, 0, 0, 0⟩ : Frame).word &&& 0xFF000000FF000000#64 = 0x500000000D000000#64 ∧
    decodeFrame ⟨0x40, 0, 0, 0x40, 0x0d, 0, 0, 0⟩ = .clsUnk ⟨0x40, 0, 0, 0x40, 0x0d, 0, 0, 0⟩ ∧
    decodeFrame ⟨0x43, 0, 0, 0x43, 0x0d, 0, 0, 0⟩ = .clsUnk ⟨0x43, 0, 0, 0x43, 0x0d, 0, 0, 0⟩ ∧
    decodeFrame ⟨0x4f, 0, 0, 0x4f, 0x0d, 0, 0, 0⟩ = .clsUnk ⟨0x4f, 0, 0, 0x4f, 0x0d, 0, 0, 0⟩ ∧
    decodeFrame ⟨0x51, 0, 0, 0x51, 0x0d, 0, 0, 0⟩ = .clsUnk ⟨0x51, 0, 0, 0x51, 0x0d, 0, 0, 0⟩ := by decide

/-- Every constructor that frame bits select is well formed on some operands and has a frame. -/
theorem test_witness_DecodeAndEncodeAgree :
    encode (.markchk ⟨0, 0, 0, 0, 0, 0, 0, 0⟩) = some ⟨0, 0, 0, 0, 0, 0, 0, 0⟩ ∧
    encode (.sumchk ⟨0, 0, 0, 1, 0x0d, 0, 0, 0⟩) = some ⟨0, 0, 0, 1, 0x0d, 0, 0, 0⟩ ∧
    encode (.clsHum 0xffff ⟨1, 2, 3⟩) = some ⟨0x41, 0xff, 0xff, 0x3f, 0x0d, 1, 2, 3⟩ ∧
    encode (.clsTemp 0xffff ⟨1, 2, 3⟩) = some ⟨0x42, 0xff, 0xff, 0x40, 0x0d, 1, 2, 3⟩ ∧
    encode (.clsCo2 0xffff ⟨1, 2, 3⟩) = some ⟨0x50, 0xff, 0xff, 0x4e, 0x0d, 1, 2, 3⟩ ∧
    encode (.clsUnk ⟨0xff, 0xff, 0xff, 0xfd, 0x0d, 0, 0, 0⟩) = some ⟨0xff, 0xff, 0xff, 0xfd, 0x0d, 0, 0, 0⟩ ∧
    (Instr.clsUnk ⟨0xff, 0xff, 0xff, 0xfd, 0x0d, 0, 0, 0⟩).wellFormed = true ∧
    decode [0xff, 0xff, 0xff, 0xfd, 0x0d, 0, 0, 0] = .ok (.clsUnk ⟨0xff, 0xff, 0xff, 0xfd, 0x0d, 0, 0, 0⟩) :=
  ⟨by decide, by decide, by decide, by decide, by decide, by decide, by decide, rfl⟩

theorem test_witness_OnlyEightBytesDecode :
    [0x41, 0x11, 0xd7, 0x29, 0x0d, 0, 0].length ≠ 8 ∧ [0x41, 0x11, 0xd7, 0x29, 0x0d, 0, 0, 0, 0].length ≠ 8 ∧
    [0x41, 0x11, 0xd7, 0x29, 0x0d, 0, 0, 0].length = 8 := by decide

/-- The phases that the session commands' statements split on: ConfigWritesKeyAndDebug, OpenStartsTheSessionOrFails,
FailedOpenLeavesNothing, LastConfigurationWins, CloseReturnsToReset, AdmissionByPhase (with DEC_EN holding a value),
RecvTakesOneReport, IochkEndsTheSequence, RecvAndIochkNeedTheSession and UnansweredReadNeverReturns. -/
theorem test_witness_phases :
    State.reset.phase = .closed ∧ (inSession 256).phase = .opened ∧ ended.phase = .ended ∧
    (inSession 256).decEn ≠ none := by decide

/-- 0 and TIMEOUT_MAX_MS on the accepting side, one above and -1 ms on the other. -/
theorem test_witness_ConfigTimeoutSetsBoundOrRejects :
    0 ≤ Config.timeoutMaxMs ∧ Config.timeoutMaxMs ≤ Config.timeoutMaxMs ∧
    Config.timeoutMaxMs < Config.timeoutMaxMs + 1 ∧ (-1 : Rat) < 0 ∧ State.reset.phase = .closed ∧
    (inSession 256).phase ≠ .closed :=
  ⟨Nat.zero_le _, le_refl _, Nat.lt_succ_self _, by decide, by decide, by decide⟩

/-- Half a millisecond, which is within every TIMEOUT_MAX_MS. -/
theorem test_witness_FractionalTimeoutCompletes :
    State.reset.phase = .closed ∧ (0 : Rat) ≤ 1 / 2 ∧ (1 / 2 : Rat).den ≠ 1 ∧ (1 / 2 : Rat) ≤ Config.timeoutMaxMs := by
  refine ⟨by decide, by norm_num, by norm_num, ?_⟩
  have h : ((5000 : Nat) : Rat) ≤ Config.timeoutMaxMs := Nat.cast_le.2 (Nat.le_add_right _ _)
  refine le_trans ?_ h
  norm_num

/-- Half a millisecond above TIMEOUT_MAX_MS + 1, whatever that is. -/
theorem test_witness_FractionalTimeoutCompletes_above :
    let d : Rat := Config.timeoutMaxMs + 1 + 1 / 2
    0 ≤ d ∧ d.den ≠ 1 ∧ (Config.timeoutMaxMs : Rat) + 1 ≤ d := by
  refine ⟨by positivity, fun h => ?_, by norm_num⟩
  have e := Rat.coe_int_num_of_den_eq_one h
  have e2 : ((2 * (Config.timeoutMaxMs + 1 + 1 / 2 : Rat).num : Int) : Rat) = ((2 * Config.timeoutMaxMs + 3 : Int) : Rat) := by
    push_cast
    rw [e]
    ring
  have := Int.cast_injective e2
  omega

/-- Half a millisecond is taken as 0 or 1. -/
theorem test_config_timeout_fraction : wholeMs (1 / 2) = 0 ∨ wholeMs (1 / 2) = 1 := by
  have h := wholeMs_floor (d := 1 / 2) (by norm_num)
  norm_num at h ⊢
  exact h

/-- 250 ms, then 1000 ms (S6), whatever TIMEOUT_MAX_MS is. -/
theorem test_witness_LastConfigurationWins :
    State.reset.phase = .closed ∧ 250 ≤ Config.timeoutMaxMs ∧ 1000 ≤ Config.timeoutMaxMs := by
  refine ⟨by decide, ?_, ?_⟩ <;> simp only [Config.timeoutMaxMs, Config.timeoutDefaultMs] <;> omega

/-- Shift counts 0 and 7. -/
theorem test_witness_ByteArithmeticWraps : shl8 0xff 0 = 0xff ∧ shl8 0xff 7 = 0x80 ∧ shr8 0xff 7 = 0x01 ∧ sub8 0 1 = 255 := by
  decide

/-- Two reports and two keys that differ everywhere but in the bits named for D[0]: RAW[2] and KEY[0] keep bits 7:3, RAW[3] and
KEY[7] keep bits 2:0 (R105, row 0). -/
theorem test_witness_DecryptedByteDependsOnTwo :
    let raw : Frame := ⟨0, 0, 0, 0, 0, 0, 0, 0⟩
    let raw' : Frame := ⟨0xff, 0xff, 0x07, 0xf8, 0xff, 0xff, 0xff, 0xff⟩
    let k : Key := ⟨0, 0, 0, 0, 0, 0, 0, 0⟩
    let k' : Key := ⟨0x07, 0xff, 0xff, 0xff, 0xff, 0xff, 0xff, 0xf8⟩
    (raw.get (permIdx 0)) >>> 3 = (raw'.get (permIdx 0)) >>> 3 ∧ (k.get 0) >>> 3 = (k'.get 0) >>> 3 ∧
    (raw.get (permIdx (0 + 7))) &&& 7 = (raw'.get (permIdx (0 + 7))) &&& 7 ∧
    (k.get (0 + 7)) &&& 7 = (k'.get (0 + 7)) &&& 7 ∧ (decryptFrame raw k).b0 = (decryptFrame raw' k').b0 := by decide

/-- N = 7, 8 and 9. -/
theorem test_witness_LenchkWantsEight : (7 : Nat) ≠ 8 ∧ (8 : Nat) = 8 ∧ (9 : Nat) ≠ 8 := by decide

/-- DEC_EN = 1, DEC_EN = 0 and DEC_EN without a value. -/
theorem test_witness_DecselChoosesByDecEn :
    (inSession 256).decEn = some true ∧ (inSession 257).decEn = some false ∧ State.reset.decEn = none := by decide

/-- V-MRK 1, 2 and 5: 0x0c, 0x0e and 0x0d. -/
theorem test_witness_MarkchkComparesByteFour :
    (0x0c : Byte) ≠ 0x0d ∧ (0x0e : Byte) ≠ 0x0d ∧ (⟨0x50, 0x01, 0xa1, 0xf2, 0x0d, 0, 0, 0⟩ : Frame).b4 = 0x0d := by decide

/-- V-SUM 1, 2 and 3: F[3] at the sum, one above and one below. -/
theorem test_witness_SumchkComparesLowByte :
    (0xf2 : Byte).toNat = ((0x50 : Byte).toNat + (0x01 : Byte).toNat + (0xa1 : Byte).toNat) % 256 ∧
    (0xf2 : Byte) ≠ 0xf3 ∧ (0xf2 : Byte) ≠ 0xf1 := by decide

/-- V = 0, 3000, 3001 and 65535. -/
theorem test_witness_Co2AboveLimitIsRejected :
    (0 : BitVec 16).toNat ≤ 3000 ∧ (3000 : BitVec 16).toNat ≤ 3000 ∧ 3000 < (3001 : BitVec 16).toNat ∧
    3000 < (65535 : BitVec 16).toNat := by decide

/-- DEBUG = 1 and DEBUG = 0. -/
theorem test_witness_DebugTapOnlyLogs :
    { State.reset with debug := true }.debug = true ∧ State.reset.debug = false := by decide

/-- The rows of R180 in bypass mode, where F is the report: V-MRK 1, V-SUM 2, V-CLS 2, 6, 15, 16 and 21. -/
theorem test_witness_ReadHasNineOutcomes :
    (inSession 257).phase = .opened ∧ (inSession 257).decEn = some false ∧ [1, 2, 3, 4, 5, 6, 7].length ≠ 8 ∧
    answersOf (exec (.readOne (.answered (.ok [0x50, 0x01, 0xa1, 0xf2, 0x0c, 0, 0, 0]))) (inSession 257)) =
      some [.outcome (.event (.unexpectedData ⟨0x50, 0x01, 0xa1, 0xf2, 0x0c, 0, 0, 0⟩))] ∧
    answersOf (exec (.readOne (.answered (.ok [0x50, 0x01, 0xa1, 0xf3, 0x0d, 0, 0, 0]))) (inSession 257)) =
      some [.outcome (.event .checksumError)] ∧
    answersOf (exec (.readOne (.answered (.ok [0x41, 0x11, 0xd7, 0x29, 0x0d, 0, 0, 0]))) (inSession 257)) =
      some [.outcome (.event (.humidity 4567))] ∧
    answersOf (exec (.readOne (.answered (.ok [0x42, 0x10, 0x64, 0xb6, 0x0d, 0, 0, 0]))) (inSession 257)) =
      some [.outcome (.event (.ambientTemperature 4196))] ∧
    answersOf (exec (.readOne (.answered (.ok [0x50, 0x0b, 0xb8, 0x13, 0x0d, 0, 0, 0]))) (inSession 257)) =
      some [.outcome (.event (.relativeConcentration 3000))] ∧
    answersOf (exec (.readOne (.answered (.ok [0x50, 0x0b, 0xb9, 0x14, 0x0d, 0, 0, 0]))) (inSession 257)) =
      some [.outcome (.event .uninitializedData)] ∧
    answersOf (exec (.readOne (.answered (.ok [0x6d, 0x0b, 0x2c, 0xa4, 0x0d, 0x11, 0x22, 0x33]))) (inSession 257)) =
      some [.outcome (.event (.unknownCode ⟨0x6d, 0x0b, 0x2c, 0xa4, 0x0d, 0x11, 0x22, 0x33⟩))] := by decide

/-- In decrypt mode F is what DECRYPT gives, which is what ReadHasNineOutcomes, FrameDecoderAgreesWithRead and
OnlyValidFramesAreClassified assume of it: V-CLS 6 (valid) and V-SUM 7 (not valid). -/
theorem test_witness_decrypted_frame :
    (inSession 256).phase = .opened ∧ (inSession 256).decEn = some true ∧
    (⟨0x42, 0x10, 0x64, 0xb6, 0x0d, 0, 0, 0⟩ : Frame) =
      (if true then decryptFrame ⟨0xc9, 0xb0, 0x50, 0xda, 0x57, 0x7f, 0x66, 0x2f⟩ (inSession 256).key
       else ⟨0xc9, 0xb0, 0x50, 0xda, 0x57, 0x7f, 0x66, 0x2f⟩) ∧
    (⟨0x42, 0x10, 0x64, 0x76, 0x0d, 0, 0, 0⟩ : Frame) =
      (if true then decryptFrame ⟨0xcf, 0xb0, 0x50, 0xda, 0x57, 0x7f, 0x66, 0x2f⟩ (inSession 256).key
       else ⟨0xcf, 0xb0, 0x50, 0xda, 0x57, 0x7f, 0x66, 0x2f⟩) := by decide

/-- CLOSED, as after reset, and the state with PHASE = OPEN. -/
theorem test_witness_ReadStopsWithoutDecEn :
    State.reset.decEn = none ∧ State.reset.phase = .closed ∧
    { inSession 256 with decEn := none }.phase = .opened ∧ { inSession 256 with decEn := none }.decEn = none ∧
    ([] : List Byte).length ≠ 8 := by decide

/-- Two states of one KEY and DEC_EN that differ in TIMEOUT, DEBUG and the working values. -/
theorem test_witness_ReadDependsOnKeyModeAnswer :
    let s := inSession 256
    let s' := { inSession 256 with timeout := .block, debug := true, cycle := { Cycle.empty with n := some 3 } }
    s.phase = .opened ∧ s'.phase = .opened ∧ s.decEn ≠ none ∧ s'.key = s.key ∧ s'.decEn = s.decEn := by decide

theorem test_witness_SoftFailureKeepsTheSession : (inSession 257).phase = .opened ∧ (inSession 257).decEn ≠ none := by decide

/-- The three ways PHASE changes (R21), IOCHK's among them. -/
theorem test_witness_PhaseTransitions :
    (nextOf (exec (.openSession (.ok 256 .ok)) State.reset)).map (·.phase) = some .opened ∧
    (nextOf (exec (.readOne (.answered .ioerr)) (inSession 256))).map (·.phase) = some .ended ∧
    (nextOf (exec (.iochk .ioerr) (inSession 256))).map (·.phase) = some .ended ∧
    (nextOf (exec .closeSession ended)).map (·.phase) = some .closed := by decide

/-- Each of the four registers changed by its writer. -/
theorem test_witness_RegisterWriters :
    (nextOf (exec (.configKey scenarioKey) State.reset)).map (·.key) ≠ some State.reset.key ∧
    (nextOf (exec (.openSession (.ok 0 .ok)) State.reset)).map (·.decEn) ≠ some State.reset.decEn ∧
    (nextOf (exec (.configTimeout .none) State.reset)).map (·.timeout) ≠ some State.reset.timeout ∧
    (nextOf (exec (.configDebug true) State.reset)).map (·.debug) ≠ some State.reset.debug := by decide

/-- A step inside a session that does not end it. -/
theorem test_witness_ConfigurationFrozenInSession :
    (inSession 256).phase ≠ .closed ∧
    (nextOf (step { inSession 256 with pending := [.operation (.readOne (.answered .ioerr))] })).map (·.phase) =
      some .ended := by decide

/-- A command and a stage that answer a next state: OneResponsePerCommand, StagesWriteNoRegister and DebugChangesNoOutcome. -/
theorem test_witness_commands_and_stages :
    isCommand (.configDebug true) = true ∧ (nextOf (exec (.configDebug true) State.reset)).isSome = true ∧
    isCommand (.iochk .ioerr) = false ∧ (nextOf (exec (.iochk .ioerr) (inSession 256))).isSome = true ∧
    isCommand (.lenchk 8) = false ∧ (nextOf (exec (.lenchk 8) State.reset)).isSome = true := by decide

/-- Registers legal, outside a session and inside one, and a step from each. -/
theorem test_witness_StepKeepsRegistersLegal :
    { State.reset with pending := [.operation (.openSession (.ok 257 .err))] }.RegistersLegal ∧
    { inSession 256 with pending := [.operation .closeSession] }.RegistersLegal ∧
    (nextOf (step { State.reset with pending := [.operation (.openSession (.ok 257 .err))] })).isSome = true ∧
    (nextOf (step { inSession 256 with pending := [.operation .closeSession] })).isSome = true := by
  have h : ∀ n, (State.reset.timeout = .ms n → n ≤ Config.timeoutMaxMs) := by
    intro n hn
    cases hn
    exact Nat.le_add_right _ _
  exact ⟨⟨by decide, h⟩, ⟨by decide, h⟩, by decide, by decide⟩

/-- Calls in order, outside a session and inside one, and a step from each. -/
theorem test_witness_StepKeepsCallsInOrder :
    { State.reset with pending := [.operation (.openSession (.ok 257 .err))] }.CallsInOrder ∧
    { inSession 256 with pending := [.operation (.readOne (.answered .ioerr))] }.CallsInOrder ∧
    (nextOf (step { inSession 256 with pending := [.operation (.readOne (.answered .ioerr))] })).isSome = true :=
  ⟨rfl, rfl, rfl⟩

/-- A session on record, and a step from it. -/
theorem test_witness_StepKeepsSessionOnRecord :
    { inSession 256 with pending := [.operation (.readOne (.answered .ioerr))] }.SessionOnRecord ∧
    (nextOf (step { inSession 256 with pending := [.operation (.readOne (.answered .ioerr))] })).isSome = true :=
  ⟨fun _ => ⟨[], _, 256, rfl, ⟨1, 2, .ok, [], rfl, by simp⟩, rfl⟩, rfl⟩

end Sys2Proof.Tests
end

section
/-! SUPPORT. The byte primitives as arithmetic (R12), and the step on a fetched table word (R13, R81). -/

namespace Sys2Proof

open Sys2Proof.Machine

/-! ### The byte primitives as numbers -/

theorem shl8_toNat (a : Byte) (k : Nat) : (shl8 a k).toNat = (a.toNat * 2 ^ k) % 256 := by
  rw [shl8, BitVec.toNat_shiftLeft, Nat.shiftLeft_eq]

theorem shr8_toNat (a : Byte) (k : Nat) : (shr8 a k).toNat = a.toNat / 2 ^ k := by
  rw [shr8, BitVec.toNat_ushiftRight, Nat.shiftRight_eq_div_pow]

theorem add8_toNat (a b : Byte) : (add8 a b).toNat = (a.toNat + b.toNat) % 256 := BitVec.toNat_add a b

/-- The difference is taken in the integers: below 0 it wraps to the top (R12). -/
theorem sub8_toNat (a b : Byte) : ((sub8 a b).toNat : Int) = ((a.toNat : Int) - b.toNat) % 256 := by
  have hb := b.isLt
  rw [sub8, BitVec.toNat_sub]
  omega

/-- The low half moves up, where the high half, moved down, has no bit: the or is a sum. -/
theorem swap4_toNat (a : Byte) : (swap4 a).toNat = (a.toNat % 16) * 16 + a.toNat / 16 := by
  have ha := a.isLt
  have hlow : (shl8 a 4).toNat = (a.toNat % 16) <<< 4 := by
    rw [shl8_toNat, Nat.shiftLeft_eq]; omega
  have hhigh : (shr8 a 4).toNat = a.toNat / 16 := shr8_toNat a 4
  rw [swap4, BitVec.toNat_or, hlow, hhigh, ← Nat.shiftLeft_add_eq_or_of_lt (by omega), Nat.shiftLeft_eq]

/-- Settles O16: one lemma per primitive of R12. -/
theorem byteArithmeticWraps : Obligations.ByteArithmeticWraps := fun a b k _ =>
  ⟨shl8_toNat a k, shr8_toNat a k, BitVec.toNat_xor .., BitVec.toNat_or .., add8_toNat a b, sub8_toNat a b, swap4_toNat a⟩

/-! ### A fetched table word -/

/-- The bytes of the table word W(f) are the frame's own. -/
@[simp] theorem tableWordBytes_word (f : Frame) : tableWordBytes 64 f.word.toNat = f.toBytes := by
  rw [tableWordBytes, Nat.mod_eq_of_lt f.word.isLt, BitVec.ofNat_toNat, BitVec.setWidth_eq, Frame.ofWord_word]

theorem decodeTableWord_word (f : Frame) : decodeTableWord 64 f.word.toNat = some (decodeFrame f) := by
  rw [decodeTableWord, tableWordBytes_word, decode_toBytes]

/-- The oldest request, where it is a frame that decodes, is taken off and run. -/
theorem step_of_frame {s : State} {bytes : List Byte} {rest : List Request} {i : Instr}
    (hp : s.pending = .frame bytes :: rest) (hd : decode bytes = .ok i) : step s = exec i (s.setPending rest) := by
  simp only [step, hp, hd]

/-- A fetched word is the oldest request. -/
@[simp] theorem withFetchWord_pending (s : State) (nbits w : Nat) :
    (s.withFetchWord nbits w).pending = .frame (tableWordBytes nbits w) :: s.pending := rfl

/-- Once a fetched word is taken off, nothing of the fetch is left. -/
theorem setPending_withFetchWord (s : State) (nbits w : Nat) : (s.withFetchWord nbits w).setPending s.pending = s := rfl

theorem step_withFetchWord {nbits w : Nat} {i : Instr} (s : State) (hd : decode (tableWordBytes nbits w) = .ok i) :
    step (s.withFetchWord nbits w) = exec i s := by
  rw [step_of_frame (withFetchWord_pending ..) hd, setPending_withFetchWord]

/-- Settles O7: the word's bytes are the frame's, so the decoder and the step read the frame itself. -/
theorem tableWordIsTheFrameWord : Obligations.TableWordIsTheFrameWord := fun f s =>
  have hd : decode (tableWordBytes 64 f.word.toNat) = .ok (decodeFrame f) := by
    rw [tableWordBytes_word, decode_toBytes]
  ⟨decodeTableWord_word f, step_withFetchWord s hd⟩

end Sys2Proof
end

section
/-! SUPPORT. What READ leaves, an equation per cause that ends it (R180, R181), and the READ statements of 10_state.md. -/

namespace Sys2Proof.Machine

open Sys2Proof

/-! ### The end of a READ, by field -/

@[simp] theorem State.finishRead_phase (s : State) (bytes : List Byte) (f : Option Frame) (o : ReadOutcome) :
    (s.finishRead bytes f o).phase = s.phase := by rw [finishRead_eq]

@[simp] theorem State.finishRead_cycle (s : State) (bytes : List Byte) (f : Option Frame) (o : ReadOutcome) :
    (s.finishRead bytes f o).cycle = Cycle.empty := by rw [finishRead_eq]

@[simp] theorem State.finishRead_toCaller (s : State) (bytes : List Byte) (f : Option Frame) (o : ReadOutcome) :
    (s.finishRead bytes f o).toCaller = s.toCaller ++ [.outcome o] := by rw [finishRead_eq]

theorem sameConfiguration_finishRead (s : State) (bytes : List Byte) (f : Option Frame) (o : ReadOutcome) :
    sameConfiguration s (s.finishRead bytes f o) := by
  rw [finishRead_eq]; exact ⟨rfl, rfl, rfl, rfl⟩

/-- A READ that returns an event leaves what `afterEvent` writes out. -/
theorem finishRead_call_event (s : State) (bytes : List Byte) (f : Option Frame) (e : Event) :
    (s.call (.transportRead s.timeout (.ok bytes))).finishRead bytes f (.event e) = s.afterEvent bytes f e := by
  simp [finishRead_eq, State.afterEvent, State.call]

/-! ### The cycle after the call, by cause -/

theorem lenOk_eq_true {n : Nat} : lenOk n = true ↔ n = 8 := by simp [lenOk, Config.frameLen]

theorem lenOk_eq_false {n : Nat} : lenOk n = false ↔ n ≠ 8 := by simp [lenOk, Config.frameLen]

theorem processAnswer_ioerr (s : State) :
    s.processAnswer .ioerr = .next ((s.setPhase .ended).finishRead [] none .endOfSequence) := rfl

theorem processAnswer_of_length_ne (s : State) {bytes : List Byte} (hl : bytes.length ≠ 8) :
    s.processAnswer (.ok bytes) = .next (s.finishRead bytes none (.event .wrongPacket)) := by
  simp [State.processAnswer, ioOk, countOf, bytesOf, lenOk_eq_false.2 hl]

theorem processAnswer_of_decEn_none {s : State} {bytes : List Byte} (hl : bytes.length = 8) (hd : s.decEn = none) :
    s.processAnswer (.ok bytes) = .refused .decEnHasNoValue := by
  simp [State.processAnswer, ioOk, countOf, lenOk_eq_true.2 hl, hd]

theorem processAnswer_of_decEn_some {s : State} {bytes : List Byte} {b : Bool} (hl : bytes.length = 8)
    (hd : s.decEn = some b) :
    s.processAnswer (.ok bytes) =
      .next (s.finishRead bytes (some (frameSeen s.key b (Frame.ofBytes bytes)))
        (.event (frameEvent (frameSeen s.key b (Frame.ofBytes bytes))))) := by
  simp [State.processAnswer, ioOk, countOf, bytesOf, lenOk_eq_true.2 hl, hd]

/-- The phase a READ with the answer `a` leaves (R141, R182). -/
def phaseAfter (a : ReadAnswer) : Phase := if ioOk a then .opened else .ended

/-- With a value in DEC_EN the cycle ends with the outcome of R181, in the phase that the answer alone decides. -/
theorem processAnswer_outcome {s : State} {b : Bool} (a : ReadAnswer) (hp : s.phase = .opened) (hd : s.decEn = some b) :
    ∃ t, s.processAnswer a = .next t ∧ t.toCaller = s.toCaller ++ [.outcome (readOutcome s.key b a)] ∧
      t.phase = phaseAfter a ∧ t.cycle = Cycle.empty := by
  cases a with
  | ioerr => exact ⟨_, processAnswer_ioerr s, by simp [readOutcome, ioOk], by simp [phaseAfter, ioOk], by simp⟩
  | ok bytes =>
    by_cases hl : bytes.length = 8
    · refine ⟨_, processAnswer_of_decEn_some hl hd, ?_, by simp [phaseAfter, ioOk, hp], by simp⟩
      simp [readOutcome, ioOk, countOf, bytesOf, lenOk_eq_true.2 hl]
    · refine ⟨_, processAnswer_of_length_ne s hl, ?_, by simp [phaseAfter, ioOk, hp], by simp⟩
      simp [readOutcome, ioOk, countOf, lenOk_eq_false.2 hl]

/-- An admitted READ makes its one call and goes on with the answer. -/
theorem exec_readOne_answered {s : State} (a : ReadAnswer) (hp : s.phase = .opened) :
    exec (.readOne (.answered a)) s = (s.call (.transportRead s.timeout a)).processAnswer a :=
  ifAdmitted_of_admits _ (admits_read.2 hp)

/-- The outcome, the phase and the working values of a READ are a function of KEY, DEC_EN and the answer (R35, R181). -/
theorem exec_readOne_outcome {s : State} {b : Bool} (a : ReadAnswer) (hp : s.phase = .opened) (hd : s.decEn = some b) :
    ∃ t, exec (.readOne (.answered a)) s = .next t ∧
      t.toCaller = s.toCaller ++ [.outcome (readOutcome s.key b a)] ∧ t.phase = phaseAfter a ∧ t.cycle = Cycle.empty := by
  rw [exec_readOne_answered a hp]
  exact processAnswer_outcome (s := s.call (.transportRead s.timeout a)) a hp hd

/-- Settles O45: both READs have the outcome of R181 for the one KEY, DEC_EN and answer. -/
theorem readDependsOnKeyModeAnswer : Obligations.ReadDependsOnKeyModeAnswer := by
  intro s s' a hp hp' hd hk hd'
  obtain ⟨b, hb⟩ := Option.ne_none_iff_exists'.1 hd
  obtain ⟨t, ht, hout, hph, hcy⟩ := exec_readOne_outcome a hp hb
  obtain ⟨t', ht', hout', hph', hcy'⟩ := exec_readOne_outcome a hp' (hd'.trans hb)
  rw [hk] at hout'
  exact ⟨t, t', _, ht, ht', hout, hout', hph'.trans hph.symm, hcy'.trans hcy.symm⟩

/-- Settles O42: DECSEL finds nothing to select by, and a READ stops there only if it comes to it. -/
theorem readStopsWithoutDecEn : Obligations.ReadStopsWithoutDecEn := by
  intro s raw hd
  refine ⟨by simp only [exec, execDecsel, hd], fun hp => ⟨?_, fun bytes hl => ?_, ?_⟩⟩
  · rw [exec_readOne_answered _ hp]
    exact processAnswer_of_decEn_none raw.length_toBytes hd
  · rw [exec_readOne_answered _ hp, processAnswer_of_length_ne _ hl, finishRead_call_event]
  · exact ⟨_, exec_readOne_answered _ hp, State.finishRead_phase ..⟩

end Sys2Proof.Machine
end

section
/-! SUPPORT. Who writes the registers, read off the inversion of exec (R20, R21, R27, R35). -/

namespace Sys2Proof.Machine

open Sys2Proof

/-- Settles O1: the reset state is written out, so each value is read off it. -/
theorem resetLeavesDefaults : Obligations.ResetLeavesDefaults := ⟨rfl, rfl, rfl, rfl, rfl, rfl, rfl⟩

/-- Settles O48: three of exec's effects write PHASE, and each is in the list of R21. -/
theorem phaseTransitions : Obligations.PhaseTransitions := by
  intro i s t h hne
  cases exec_effect h with
  | quiet _ _ _ _ hq =>
    obtain ⟨⟨hp, -⟩, -⟩ := hq
    exact absurd hp hne
  | opens fw feat hp ht => subst ht; exact .inl ⟨hp, rfl, fw, feat, rfl⟩
  | readEnds hp ht => subst ht; exact .inr (.inl ⟨hp, State.finishRead_phase .., .inl rfl⟩)
  | ends hp ht => exact .inr (.inl ⟨hp, ht, .inr rfl⟩)
  | closes hp ht => subst ht; exact .inr (.inr ⟨hp, rfl, rfl⟩)
  | readEvent bytes f e _ ht => subst ht; exact absurd (State.finishRead_phase ..) hne
  | configKey _ _ ht | configDebug _ _ ht | configTimeout _ _ _ _ ht | timeoutRejected _ _ _ ht | openFails _ ht
  | receives _ _ ht => subst ht; exact absurd rfl hne

/-- Where the configuration stays, each clause of the form "if this register changes, then …" holds. -/
theorem sameConfiguration.unwritten {s t : State} {K D T B : Prop} (h : sameConfiguration s t) :
    (t.key ≠ s.key → K) ∧ (t.decEn ≠ s.decEn → D) ∧ (t.timeout ≠ s.timeout → T) ∧ (t.debug ≠ s.debug → B) :=
  let ⟨hk, hd, ht, hb⟩ := h
  ⟨absurd hk, absurd hd, absurd ht, absurd hb⟩

/-- Settles O49: an effect that is none of the four writers' and not CLOSE's leaves the configuration. -/
theorem registerWriters : Obligations.RegisterWriters := by
  intro i s t h hclose
  cases exec_effect h with
  | configKey k hp ht => subst ht; exact ⟨fun _ => ⟨hp, rfl⟩, absurd rfl, absurd rfl, absurd rfl⟩
  | opens fw feat hp ht =>
    rw [openWith_eq] at ht
    subst ht; exact ⟨absurd rfl, fun _ => ⟨hp, fw, feat, rfl⟩, absurd rfl, absurd rfl⟩
  | configTimeout d _ hp _ ht => subst ht; exact ⟨absurd rfl, absurd rfl, fun _ => ⟨hp, d, rfl⟩, absurd rfl⟩
  | configDebug d hp ht => subst ht; exact ⟨absurd rfl, absurd rfl, absurd rfl, fun _ => ⟨hp, rfl⟩⟩
  | closes => exact absurd rfl hclose
  | quiet _ _ _ _ hq =>
    obtain ⟨⟨-, hc⟩, -⟩ := hq
    exact hc.unwritten
  | ends _ _ hc => exact hc.unwritten
  | readEnds _ ht | readEvent _ _ _ _ ht => subst ht; exact (sameConfiguration_finishRead ..).unwritten
  | timeoutRejected _ _ _ ht | openFails _ ht | receives _ _ ht => subst ht; exact sameConfiguration.unwritten ⟨rfl, rfl, rfl, rfl⟩

/-- Settles O52: of the effects of an operation that is no command only IOCHK's at a failed read writes a register. -/
theorem stagesWriteNoRegister : Obligations.StagesWriteNoRegister := by
  intro i s t hcmd h
  cases exec_effect h with
  | quiet _ _ hi _ hq => exact ⟨fun e => absurd e hi, fun _ => hq.1⟩
  | receives a _ ht => subst ht; exact ⟨nofun, fun _ => ⟨rfl, rfl, rfl, rfl, rfl⟩⟩
  | ends _ hp hc => exact ⟨fun _ => ⟨hp, hc⟩, absurd rfl⟩
  | _ => cases hcmd

end Sys2Proof.Machine
end

section
/-! SUPPORT. Nothing but the diagnostics depends on DEBUG (R25, R183): two runs from states that differ in DEBUG stay in step. -/

namespace Sys2Proof.Machine

open Sys2Proof

/-- The two states differ in DEBUG and the diagnostics only. -/
def AgreeButDebug (t t' : State) : Prop := { t' with debug := t.debug, diag := t.diag } = t

/-- The two answers are next states that agree so, or one and the same stop. -/
inductive SameButDebug : Result → Result → Prop where
  | next {t t' : State} (h : AgreeButDebug t t') : SameButDebug (.next t) (.next t')
  | fault (e : Fault) : SameButDebug (.fault e) (.fault e)
  | refused (e : Refusal) : SameButDebug (.refused e) (.refused e)

theorem SameButDebug.ite {p : Prop} [Decidable p] {a a' b b' : Result} (ha : SameButDebug a a') (hb : SameButDebug b b') :
    SameButDebug (if p then a else b) (if p then a' else b') := by
  split
  · exact ha
  · exact hb

/-- Admission reads PHASE only. -/
theorem SameButDebug.ifAdmitted {r r' : Result} (c : Command) (s : State) (d : Bool) (h : SameButDebug r r') :
    SameButDebug (ifAdmitted c s r) (ifAdmitted c (s.setDebug d) r') :=
  .ite h (.refused _)

/-- The tap is the one operation that reads DEBUG, and it writes the diagnostics only. -/
theorem agreeButDebug_tap (s : State) (d : Bool) (bytes : List Byte) (f : Option Frame) (o : ReadOutcome) :
    AgreeButDebug (s.tap bytes f o) ((s.setDebug d).tap bytes f o) := by
  rw [tap_eq, tap_eq]
  rfl

theorem agreeButDebug_finishRead (s : State) (d : Bool) (bytes : List Byte) (f : Option Frame) (o : ReadOutcome) :
    AgreeButDebug (s.finishRead bytes f o) ((s.setDebug d).finishRead bytes f o) :=
  agreeButDebug_tap (s.returnOutcome o) d bytes f o

theorem agreeButDebug_openWith (s : State) (d : Bool) (fw : Nat) (feat : WriteAnswer) :
    AgreeButDebug (s.openWith fw feat) ((s.setDebug d).openWith fw feat) := by
  rw [openWith_eq, openWith_eq]
  rfl

theorem agreeButDebug_selectFrame (s : State) (d b : Bool) (raw : Frame) :
    AgreeButDebug (s.selectFrame b raw) ((s.setDebug d).selectFrame b raw) := by
  cases b <;> rfl

theorem sameButDebug_processAnswer (s : State) (d : Bool) (a : ReadAnswer) :
    SameButDebug (s.processAnswer a) ((s.setDebug d).processAnswer a) := by
  refine .ite (.next (agreeButDebug_finishRead (s.setPhase .ended) d ..)) (.ite (.next (agreeButDebug_finishRead s d ..)) ?_)
  rw [State.setDebug_decEn]
  cases s.decEn with
  | none => exact .refused _
  | some b => exact .next (agreeButDebug_finishRead s d ..)

theorem sameButDebug_decsel (s : State) (d : Bool) (raw : Frame) :
    SameButDebug (execDecsel raw s) (execDecsel raw (s.setDebug d)) := by
  unfold execDecsel
  rw [State.setDebug_decEn]
  cases s.decEn with
  | none => exact .refused _
  | some b => exact .next (agreeButDebug_selectFrame s d b raw)

/-- Every operation answers the same whatever DEBUG holds, but for DEBUG and the diagnostics. -/
theorem sameButDebug_exec (i : Instr) (s : State) (d : Bool) : SameButDebug (exec i s) (exec i (s.setDebug d)) := by
  cases i with
  | configKey k => exact .ifAdmitted _ s d (.next rfl)
  | configDebug b => exact .ifAdmitted _ s d (.next rfl)
  | configTimeout τ =>
    refine .ifAdmitted _ s d ?_
    cases timeoutOf τ <;> exact .next rfl
  | openSession r =>
    refine .ifAdmitted _ s d ?_
    cases r with
    | err => exact .next rfl
    | ok fw feat => exact .next (agreeButDebug_openWith s d fw feat)
  | closeSession => exact .ifAdmitted _ s d (.next rfl)
  | readOne rx =>
    refine .ifAdmitted _ s d ?_
    cases rx with
    | never => exact .fault _
    | answered a => exact sameButDebug_processAnswer (s.call (.transportRead s.timeout a)) d a
  | recv rx =>
    refine .ifAdmitted _ s d ?_
    cases rx with
    | never => exact .fault _
    | answered a => exact .next rfl
  | iochk a => exact .ifAdmitted _ s d (.ite (.next rfl) (.next rfl))
  | lenchk n => exact .ite (.next rfl) (.next rfl)
  | decsel raw => exact sameButDebug_decsel s d raw
  | markchk f => exact .ite (.next rfl) (.next rfl)
  | sumchk f => exact .ite (.next rfl) (.next rfl)
  | dbgtap bytes f o => exact .next (agreeButDebug_tap s d bytes f o)
  | perm _ | xork _ | rotr3 _ | unmask _ | decrypt _ | value _ _ | dispatch _ | clsHum _ _ | clsTemp _ _ | clsCo2 _ _
  | clsUnk _ => exact .next rfl

/-- Settles O53: a next state is answered by one that agrees with it. -/
theorem debugChangesNoOutcome : Obligations.DebugChangesNoOutcome := by
  intro i s t d h
  have hsame := sameButDebug_exec i s d
  rw [h] at hsame
  generalize hr : exec i (s.setDebug d) = r at hsame
  cases hsame with
  | next hagree => exact ⟨_, hr, hagree⟩

end Sys2Proof.Machine
end

section
/-! SUPPORT. The registers stay legal (R23, R24, R26), and the three invariants at reset (R34). -/

namespace Sys2Proof.Machine

open Sys2Proof

/-- What CONFIG.TIMEOUT writes fits the transport's unit (R24, D19). -/
theorem timeoutOf_ms_le {d : TimeoutSetting} {n : Nat} (h : timeoutOf d = some (.ms n)) : n ≤ Config.timeoutMaxMs := by
  cases d with
  | none => cases h
  | duration ms =>
    simp only [timeoutOf] at h
    split at h
    · cases h
    · next hfits =>
      cases h
      exact not_lt.1 fun hlt => hfits (.inr hlt)

/-- Legality reads DEC_EN, TIMEOUT and whether there is a session, and nothing else. -/
theorem State.RegistersLegal.of_same {s t : State} (hs : s.RegistersLegal) (hp : t.phase = .closed ↔ s.phase = .closed)
    (hd : t.decEn = s.decEn) (ht : t.timeout = s.timeout) : t.RegistersLegal where
  decEnIffSession := by rw [hd, hp]; exact hs.decEnIffSession
  timeoutFits := by rw [ht]; exact hs.timeoutFits

/-- The values of reset and of CLOSE are legal, since TIMEOUT_MAX_MS is not below the default (notes/assumptions/4.md). -/
theorem State.RegistersLegal.of_defaults {t : State} (hp : t.phase = .closed) (hd : t.decEn = none)
    (ht : t.timeout = .ms Config.timeoutDefaultMs) : t.RegistersLegal where
  decEnIffSession := iff_of_true hd hp
  timeoutFits n hn := by
    cases ht.symm.trans hn
    exact Nat.le_add_right _ _

/-- DEC_EN gets its value as the session starts and loses it as the session ends; going from OPEN to ENDED, the session is one
still.  TIMEOUT is written by CONFIG.TIMEOUT and CLOSE only. -/
theorem exec_keeps_registersLegal {i : Instr} {s t : State} (hs : s.RegistersLegal) (h : exec i s = .next t) :
    t.RegistersLegal := by
  cases exec_effect h with
  | quiet _ _ _ _ hq =>
    obtain ⟨⟨hp, -, hd, ht, -⟩, -⟩ := hq
    exact hs.of_same (by rw [hp]) hd ht
  | configTimeout d τ _ hd ht =>
    subst ht
    exact ⟨hs.decEnIffSession, fun n hn => timeoutOf_ms_le (hd.trans (congrArg some hn))⟩
  | opens fw feat _ ht =>
    rw [openWith_eq] at ht
    subst ht
    exact ⟨iff_of_false nofun nofun, hs.timeoutFits⟩
  | closes _ ht => subst ht; exact .of_defaults rfl rfl rfl
  | readEnds hp ht =>
    rw [finishRead_eq] at ht
    subst ht
    exact hs.of_same (iff_of_false nofun (by simp [hp])) rfl rfl
  | ends hp ht hc =>
    obtain ⟨-, hd, hτ, -⟩ := hc
    exact hs.of_same (by simp [hp, ht]) hd hτ
  | readEvent bytes f e _ ht =>
    rw [finishRead_eq] at ht
    subst ht
    exact hs.of_same .rfl rfl rfl
  | configKey _ _ ht | configDebug _ _ ht | timeoutRejected _ _ _ ht | openFails _ ht | receives _ _ ht =>
    subst ht; exact hs.of_same .rfl rfl rfl

/-- Settles O55: a step waits, or runs an operation, and every operation keeps the registers legal. -/
theorem stepKeepsRegistersLegal : Obligations.StepKeepsRegistersLegal := by
  intro s t hs h
  obtain rfl | ⟨i, q, rest, -, hi⟩ := step_next h
  · exact hs
  · exact exec_keeps_registersLegal (s := s.setPending rest) (hs.of_same .rfl rfl rfl) hi

/-- Settles O54: reset has the default registers, no call on the wire and no session. -/
theorem invariantsHoldAtReset : Obligations.InvariantsHoldAtReset :=
  ⟨.of_defaults rfl rfl rfl, rfl, absurd rfl⟩

end Sys2Proof.Machine
end

section
/-! SUPPORT. The transport's calls stay in the order of R63: each operation adds calls that lead from one resting place to another. -/

namespace Sys2Proof.Machine

open Sys2Proof

/-- Where the calls of R63 rest between two operations: with no session, or in the reads of the one under way (R26). -/
def restingCallPhase (p : Phase) : CallPhase := if p = .closed then .idle else .active

theorem callsInOrder_iff {s : State} : s.CallsInOrder ↔ callPhase s.wire = restingCallPhase s.phase := .rfl

/-- Calls added at the end go on from where the calls before them left off. -/
theorem callPhase_append (earlier calls : List TransportCall) :
    callPhase (earlier ++ calls) = calls.foldl CallPhase.next (callPhase earlier) :=
  List.foldl_append ..

/-- Calls stay in order where the ones added lead from the resting place of the old PHASE to that of the new. -/
theorem State.CallsInOrder.of_calls {s t : State} {p q : Phase} {calls : List TransportCall} (hs : s.CallsInOrder)
    (hp : s.phase = p) (hq : t.phase = q) (hw : t.wire = s.wire ++ calls)
    (hc : calls.foldl CallPhase.next (restingCallPhase p) = restingCallPhase q) : t.CallsInOrder := by
  rw [callsInOrder_iff] at hs ⊢
  rw [hw, callPhase_append, hs, hp, hq, hc]

/-- With no call made it is enough that a session is under way exactly where one was. -/
theorem State.CallsInOrder.of_same {s t : State} (hs : s.CallsInOrder) (hp : t.phase = .closed ↔ s.phase = .closed)
    (hw : t.wire = s.wire) : t.CallsInOrder := by
  rw [callsInOrder_iff] at hs ⊢
  rw [hw, hs]
  simp only [restingCallPhase, hp]

/-- OPEN's three calls start a session and CLOSE's release ends it; a read needs a session and leaves it under way, failed or not
(R182), and a TransportOpen that is not granted leaves none.  Nothing else calls the transport. -/
theorem exec_keeps_callsInOrder {i : Instr} {s t : State} (hs : s.CallsInOrder) (h : exec i s = .next t) :
    t.CallsInOrder := by
  cases exec_effect h with
  | quiet _ _ _ _ hq =>
    obtain ⟨⟨hp, -⟩, hw, -⟩ := hq
    exact hs.of_same (by rw [hp]) hw
  | openFails hp ht => subst ht; exact hs.of_calls hp hp rfl rfl
  | opens fw feat hp ht =>
    rw [openWith_eq] at ht
    subst ht; exact hs.of_calls hp rfl rfl rfl
  | closes hp ht => subst ht; exact hs.of_calls rfl rfl rfl (by rw [restingCallPhase, if_neg hp]; rfl)
  | readEnds hp ht =>
    rw [finishRead_eq] at ht
    subst ht; exact hs.of_calls hp rfl rfl rfl
  | readEvent bytes f e hp ht =>
    rw [finishRead_eq] at ht
    subst ht; exact hs.of_calls hp hp rfl rfl
  | receives a hp ht => subst ht; exact hs.of_calls hp hp rfl rfl
  | ends hp ht _ hw => exact hs.of_same (by simp [hp, ht]) hw
  | configKey _ _ ht | configDebug _ _ ht | configTimeout _ _ _ _ ht | timeoutRejected _ _ _ ht =>
    subst ht; exact hs.of_same .rfl rfl

/-- Settles O56: a step waits, or runs an operation, and every operation keeps the calls in order. -/
theorem stepKeepsCallsInOrder : Obligations.StepKeepsCallsInOrder := by
  intro s t hs h
  obtain rfl | ⟨i, q, rest, -, hi⟩ := step_next h
  · exact hs
  · exact exec_keeps_callsInOrder (s := s.setPending rest) hs hi

end Sys2Proof.Machine
end

section
/-! SUPPORT. ROTR3 as a rotation of the word W (R59, R102). -/

namespace Sys2Proof.Machine

open Sys2Proof

/-- The low k bits of one word set above all but the low k bits of another: the parts do not overlap, so the or is a sum. -/
theorem shiftLeft_or_ushiftRight_toNat {m k : Nat} (a b : BitVec (m + k)) :
    (a <<< m ||| b >>> k).toNat = a.toNat % 2 ^ k * 2 ^ m + b.toNat / 2 ^ k := by
  have hhigh : (a <<< m).toNat = (a.toNat % 2 ^ k) <<< m := by
    rw [BitVec.toNat_shiftLeft, Nat.shiftLeft_eq, Nat.shiftLeft_eq, pow_add, mul_comm (2 ^ m), Nat.mul_mod_mul_right]
  have hlow : b.toNat / 2 ^ k < 2 ^ m := Nat.div_lt_of_lt_mul (b.isLt.trans_eq (by rw [pow_add, mul_comm]))
  rw [BitVec.toNat_or, hhigh, BitVec.toNat_ushiftRight, Nat.shiftRight_eq_div_pow, ← Nat.shiftLeft_add_eq_or_of_lt hlow,
    Nat.shiftLeft_eq]

/-- A byte of R as a number (R102): bits 2:0 of the preceding byte of X above bits 7:3 of its own. -/
theorem rotatedByte_toNat (a b : Byte) : (shl8 a 5 ||| shr8 b 3).toNat = a.toNat % 8 * 32 + b.toNat / 8 :=
  shiftLeft_or_ushiftRight_toNat (m := 5) (k := 3) a b

/-- A word rotated right by 3, as a number (R59). -/
theorem rotatedWord_toNat (w : BitVec 64) :
    (w >>> 3 ||| (w % 8#64) <<< 61).toNat = w.toNat % 2 ^ 3 * 2 ^ 61 + w.toNat / 2 ^ 3 := by
  rw [low_three_shiftLeft, BitVec.or_comm]
  exact shiftLeft_or_ushiftRight_toNat (m := 61) (k := 3) w w

/-- R of R102 byte by byte, the byte before byte 0 being byte 7. -/
theorem rotrFrame_eq (x : Frame) :
    rotrFrame x =
      ⟨shl8 x.b7 5 ||| shr8 x.b0 3, shl8 x.b0 5 ||| shr8 x.b1 3, shl8 x.b1 5 ||| shr8 x.b2 3, shl8 x.b2 5 ||| shr8 x.b3 3,
       shl8 x.b3 5 ||| shr8 x.b4 3, shl8 x.b4 5 ||| shr8 x.b5 3, shl8 x.b5 5 ||| shr8 x.b6 3, shl8 x.b6 5 ||| shr8 x.b7 3⟩ :=
  rfl

/-- Eight bytes that each hand their low three bits to the next are one word rotated (R59). -/
theorem rotrFrame_word (x : Frame) : (rotrFrame x).word = (x.word >>> 3) ||| ((x.word % 8#64) <<< 61) := by
  apply BitVec.eq_of_toNat_eq
  rw [rotatedWord_toNat, rotrFrame_eq, Frame.word_toNat, Frame.word_toNat]
  simp only [rotatedByte_toNat]
  omega

/-- Settles O20: ROTR3 writes the rotated frame, and its word is the rotated word. -/
theorem rotateAsOneWord : Obligations.RotateAsOneWord := fun _ x => ⟨rotrFrame x, rfl, rotrFrame_word x⟩

end Sys2Proof.Machine
end

section
/-! SUPPORT. The frame decoder: the rows of R77 as a relation, the frame each selected operation is read from (R72, R81), and the
same rows seen by the match and mask on W. -/

namespace Sys2Proof

open Sys2Proof.Machine

/-! ### The conditions of the rows -/

theorem markOk_iff {f : Frame} : markOk f = true ↔ f.b4 = Config.marker := beq_iff_eq

theorem sumOk_iff {f : Frame} : sumOk f = true ↔ f.b0 + f.b1 + f.b2 = f.b3 := beq_iff_eq

theorem knownCode_eq_false {c : Byte} :
    knownCode c = false ↔ c ≠ Config.codeHum ∧ c ≠ Config.codeTemp ∧ c ≠ Config.codeCo2 := by
  simp [knownCode, and_assoc]

/-! ### The rows of R77 -/

/-- The operation that the frame `f` selects: one constructor per row of R77, with what makes it the first row that holds. -/
inductive FrameSelects (f : Frame) : Instr → Prop where
  | markchk (hm : markOk f = false) : FrameSelects f (.markchk f)
  | sumchk (hm : markOk f = true) (hs : sumOk f = false) : FrameSelects f (.sumchk f)
  | clsHum (hm : markOk f = true) (hs : sumOk f = true) (hc : f.get 0 = Config.codeHum) :
      FrameSelects f (.clsHum (valueOf f) f.pad)
  | clsTemp (hm : markOk f = true) (hs : sumOk f = true) (hc : f.get 0 = Config.codeTemp) :
      FrameSelects f (.clsTemp (valueOf f) f.pad)
  | clsCo2 (hm : markOk f = true) (hs : sumOk f = true) (hc : f.get 0 = Config.codeCo2) :
      FrameSelects f (.clsCo2 (valueOf f) f.pad)
  | clsUnk (hm : markOk f = true) (hs : sumOk f = true) (hc : knownCode (f.get 0) = false) : FrameSelects f (.clsUnk f)

/-- The rows leave no frame out. -/
theorem decodeFrame_selects (f : Frame) : FrameSelects f (decodeFrame f) := by
  unfold decodeFrame
  split_ifs with hm hs hhum htemp hco2
  · exact .markchk hm
  all_goals rw [Bool.not_eq_false] at hm
  · exact .sumchk hm hs
  all_goals rw [Bool.not_eq_false] at hs
  · exact .clsHum hm hs hhum
  · exact .clsTemp hm hs htemp
  · exact .clsCo2 hm hs hco2
  · exact .clsUnk hm hs (knownCode_eq_false.2 ⟨hhum, htemp, hco2⟩)

/-- And only one of them decides. -/
theorem FrameSelects.decodeFrame_eq {f : Frame} {i : Instr} (h : FrameSelects f i) : decodeFrame f = i := by
  cases h with
  | markchk hm => exact if_pos hm
  | sumchk hm hs => simp [decodeFrame, hm, hs]
  | clsHum hm hs hc => simp [decodeFrame, hm, hs, hc, valueOf]
  | clsTemp hm hs hc =>
    have hne : Config.codeTemp ≠ Config.codeHum := by decide
    simp [decodeFrame, hm, hs, hc, hne, valueOf]
  | clsCo2 hm hs hc =>
    have hne : Config.codeCo2 ≠ Config.codeHum ∧ Config.codeCo2 ≠ Config.codeTemp := by decide
    simp [decodeFrame, hm, hs, hc, hne, valueOf]
  | clsUnk hm hs hc =>
    have hne := knownCode_eq_false.1 hc
    simp [decodeFrame, hm, hs, hne]

theorem decodeFrame_eq_iff {f : Frame} {i : Instr} : decodeFrame f = i ↔ FrameSelects f i :=
  ⟨fun h => h ▸ decodeFrame_selects f, FrameSelects.decodeFrame_eq⟩

/-! ### The frame of a code, a value and a pad (R72) -/

@[simp] theorem frameOf_markOk (c : Byte) (v : BitVec 16) (pad : Pad) : markOk (frameOf c v pad) = true := rfl

@[simp] theorem frameOf_sumOk (c : Byte) (v : BitVec 16) (pad : Pad) : sumOk (frameOf c v pad) = true := sumOk_iff.2 rfl

@[simp] theorem frameOf_get_zero (c : Byte) (v : BitVec 16) (pad : Pad) : (frameOf c v pad).get 0 = c := rfl

@[simp] theorem valueOf_frameOf (c : Byte) (v : BitVec 16) (pad : Pad) : valueOf (frameOf c v pad) = v := u16_extract v

@[simp] theorem pad_frameOf (c : Byte) (v : BitVec 16) (pad : Pad) : (frameOf c v pad).pad = pad := rfl

/-- The bytes that a value is put together from are read back from it (R13). -/
theorem extract_u16 (hi lo : Byte) : (u16 hi lo).extractLsb' 8 8 = hi ∧ (u16 hi lo).extractLsb' 0 8 = lo := by
  have := hi.isLt
  have := lo.isLt
  constructor <;> apply BitVec.eq_of_toNat_eq <;>
    simp only [BitVec.extractLsb'_toNat, u16_toNat, Nat.shiftRight_eq_div_pow] <;> omega

/-- A valid frame holds nothing but its code, its value and its pad (R72, R146). -/
theorem frameOf_self {f : Frame} (hm : markOk f = true) (hs : sumOk f = true) :
    frameOf (f.get 0) (valueOf f) f.pad = f := by
  obtain ⟨hhi, hlo⟩ := extract_u16 (f.get 1) (f.get 2)
  simp only [frameOf, valueOf, hhi, hlo, ← markOk_iff.1 hm]
  exact congrArg (Frame.mk f.b0 f.b1 f.b2 · f.b4 f.b5 f.b6 f.b7) (sumOk_iff.1 hs)

/-! ### Decoding and encoding -/

/-- What a frame selects is an operation the block can be at, and its frame is that frame. -/
theorem FrameSelects.encode_eq {f : Frame} {i : Instr} (h : FrameSelects f i) :
    i.wellFormed = true ∧ encode i = some f := by
  cases h with
  | markchk hm => simp [Instr.wellFormed, encode, hm]
  | sumchk hm hs => simp [Instr.wellFormed, encode, hm, hs]
  | clsHum hm hs hc | clsTemp hm hs hc | clsCo2 hm hs hc => exact ⟨rfl, by rw [encode, ← hc, frameOf_self hm hs]⟩
  | clsUnk hm hs hc => simp [Instr.wellFormed, encode, hm, hs, hc]

/-- An operation with a frame is what that frame selects. -/
theorem frameSelects_of_encode {f : Frame} {i : Instr} (hw : i.wellFormed = true) (he : encode i = some f) :
    FrameSelects f i := by
  cases i with
  | markchk g =>
    obtain ⟨hm, rfl⟩ : markOk g = false ∧ g = f := by simpa [encode] using he
    exact .markchk hm
  | sumchk g =>
    obtain ⟨⟨hm, hs⟩, rfl⟩ : (markOk g = true ∧ sumOk g = false) ∧ g = f := by simpa [encode] using he
    exact .sumchk hm hs
  | clsHum v pad => cases he; simpa using FrameSelects.clsHum (f := frameOf Config.codeHum v pad)
  | clsTemp v pad => cases he; simpa using FrameSelects.clsTemp (f := frameOf Config.codeTemp v pad)
  | clsCo2 v pad => cases he; simpa using FrameSelects.clsCo2 (f := frameOf Config.codeCo2 v pad)
  | clsUnk g =>
    cases he
    obtain ⟨⟨hm, hs⟩, hc⟩ : (markOk f = true ∧ sumOk f = true) ∧ knownCode (f.get 0) = false := by
      simpa [Instr.wellFormed] using hw
    exact .clsUnk hm hs hc
  | _ => cases he

theorem decode_of_length_eq {bytes : List Byte} (hl : bytes.length = 8) :
    decode bytes = .ok (decodeFrame (Frame.ofBytes bytes)) := if_pos hl

theorem decode_of_length_ne {bytes : List Byte} (hl : bytes.length ≠ 8) :
    decode bytes = .error (.wrongLength bytes.length) := if_neg hl

/-- What decodes is the bytes of one frame, and it decodes to what the frame selects. -/
theorem decode_eq_ok_iff {bytes : List Byte} {i : Instr} :
    decode bytes = .ok i ↔ ∃ f : Frame, f.toBytes = bytes ∧ FrameSelects f i := by
  constructor
  · intro h
    by_cases hl : bytes.length = 8
    · rw [decode_of_length_eq hl] at h
      exact ⟨_, Frame.toBytes_ofBytes hl, decodeFrame_eq_iff.1 (Except.ok.inj h)⟩
    · rw [decode_of_length_ne hl] at h
      cases h
  · rintro ⟨f, rfl, h⟩
    rw [decode_toBytes, h.decodeFrame_eq]

/-- Settles O5: both directions go through the row of R77 that selects the operation. -/
theorem decodeAndEncodeAgree : Obligations.DecodeAndEncodeAgree := by
  refine ⟨fun i f hw he => decode_eq_ok_iff.2 ⟨f, rfl, frameSelects_of_encode hw he⟩, fun bytes i h => ?_⟩
  obtain ⟨f, hf, hsel⟩ := decode_eq_ok_iff.1 h
  obtain ⟨hw, he⟩ := hsel.encode_eq
  exact ⟨hw, f, he, hf⟩

/-- Settles O6: the decoder looks at the length first, and every row of R77 selects a well-formed operation. -/
theorem onlyEightBytesDecode : Obligations.OnlyEightBytesDecode := by
  refine fun bytes => ⟨decode_of_length_ne, fun hl => ⟨_, decode_of_length_eq hl, ?_⟩⟩
  obtain ⟨hw, -⟩ := (decodeFrame_selects (Frame.ofBytes bytes)).encode_eq
  exact hw

/-- Settles O3: the decoder run on the six frames. -/
theorem writtenFramesDecode : Obligations.WrittenFramesDecode := ⟨rfl, rfl, rfl, rfl, rfl, rfl⟩

/-! ### Match and mask on W -/

/-- A byte of a mask that is all ones leaves the frame's byte as it is. -/
theorem and_byteMask (a : Byte) : a &&& 0xFF#8 = a := BitVec.and_allOnes

/-- Row 1's condition on W is the marker check (R77). -/
theorem marker_row_iff {f : Frame} : f.word &&& 0x00000000FF000000#64 = 0x000000000D000000#64 ↔ markOk f = true := by
  refine (Frame.word_and_eq f ⟨0, 0, 0, 0, 0xFF, 0, 0, 0⟩ ⟨0, 0, 0, 0, 0x0D, 0, 0, 0⟩).trans ?_
  simp [Fin.forall_fin_succ, Frame.get, markOk_iff, Config.marker, and_byteMask]

/-- Match and mask of the rows with a code fix the code and the marker, and nothing else (R77). -/
theorem code_row_iff {f : Frame} {c : Byte} :
    f.word &&& 0xFF000000FF000000#64 = Frame.word ⟨c, 0, 0, 0, 0x0D, 0, 0, 0⟩ ↔ f.get 0 = c ∧ markOk f = true := by
  refine (Frame.word_and_eq f ⟨0xFF, 0, 0, 0, 0xFF, 0, 0, 0⟩ ⟨c, 0, 0, 0, 0x0D, 0, 0, 0⟩).trans ?_
  simp [Fin.forall_fin_succ, Frame.get, markOk_iff, Config.marker, and_byteMask]

/-- Settles O4: each condition on W is the condition of a row, and the row's operation is the one decoded. -/
theorem frameSelectsByMatchAndMask : Obligations.FrameSelectsByMatchAndMask := by
  intro f marker sum row
  have hmark : marker ↔ markOk f = true := marker_row_iff
  have hsum : sum ↔ sumOk f = true := sumOk_iff.symm
  have hhum : row 0x410000000D000000#64 ↔ f.get 0 = Config.codeHum ∧ markOk f = true :=
    code_row_iff (c := Config.codeHum)
  have htemp : row 0x420000000D000000#64 ↔ f.get 0 = Config.codeTemp ∧ markOk f = true :=
    code_row_iff (c := Config.codeTemp)
  have hco2 : row 0x500000000D000000#64 ↔ f.get 0 = Config.codeCo2 ∧ markOk f = true :=
    code_row_iff (c := Config.codeCo2)
  simp only [hmark, hsum, hhum, htemp, hco2, decodeFrame_eq_iff, Bool.not_eq_true]
  refine ⟨.markchk, .sumchk, fun hs ⟨hc, hm⟩ => .clsHum hm hs hc, fun hs ⟨hc, hm⟩ => .clsTemp hm hs hc,
    fun hs ⟨hc, hm⟩ => .clsCo2 hm hs hc, fun hm hs h1 h2 h3 => .clsUnk hm hs (knownCode_eq_false.2 ?_)⟩
  exact ⟨fun hc => h1 ⟨hc, hm⟩, fun hc => h2 ⟨hc, hm⟩, fun hc => h3 ⟨hc, hm⟩⟩

end Sys2Proof
end

section
/-! SUPPORT. The event of a decoded frame, row by row (R77, R180), and READ beside the operation the frame decoder selects. -/

namespace Sys2Proof.Machine

open Sys2Proof

/-! ### The code table of DISPATCH (R165) -/

@[simp] theorem classOf_codeHum : classOf Config.codeHum = .hum := rfl

@[simp] theorem classOf_codeTemp : classOf Config.codeTemp = .temp := rfl

@[simp] theorem classOf_codeCo2 : classOf Config.codeCo2 = .co2 := rfl

theorem classOf_of_unknown {c : Byte} (h : knownCode c = false) : classOf c = .unk := by
  simp [classOf, knownCode_eq_false.1 h]

/-! ### The event of a frame, by row -/

theorem frameEvent_of_marker_wrong {f : Frame} (hm : markOk f = false) : frameEvent f = .unexpectedData f := if_pos hm

theorem frameEvent_of_sum_wrong {f : Frame} (hm : markOk f = true) (hs : sumOk f = false) :
    frameEvent f = .checksumError := by
  simp [frameEvent, hm, hs]

theorem frameEvent_of_codeHum {f : Frame} (hm : markOk f = true) (hs : sumOk f = true) (hc : f.get 0 = Config.codeHum) :
    frameEvent f = .humidity (valueOf f) := by
  simp [frameEvent, hm, hs, hc]

theorem frameEvent_of_codeTemp {f : Frame} (hm : markOk f = true) (hs : sumOk f = true)
    (hc : f.get 0 = Config.codeTemp) : frameEvent f = .ambientTemperature (valueOf f) := by
  simp [frameEvent, hm, hs, hc]

theorem frameEvent_of_codeCo2 {f : Frame} (hm : markOk f = true) (hs : sumOk f = true) (hc : f.get 0 = Config.codeCo2) :
    frameEvent f = co2Event (valueOf f) := by
  simp [frameEvent, hm, hs, hc]

theorem frameEvent_of_unknown {f : Frame} (hm : markOk f = true) (hs : sumOk f = true)
    (hc : knownCode (f.get 0) = false) : frameEvent f = .unknownCode f := by
  simp [frameEvent, hm, hs, classOf_of_unknown hc]

/-! ### The selected operation -/

/-- The operation that a frame selects yields the frame's event: a check that fails writes its conditions first, a classification
writes nothing else. -/
theorem exec_of_frameSelects {f : Frame} {i : Instr} (s : State) (h : FrameSelects f i) :
    ∃ c, exec i s = .next ((s.setCycle c).yield (.event (frameEvent f))) := by
  cases h with
  | markchk hm =>
    rw [frameEvent_of_marker_wrong hm]
    exact ⟨_, if_neg (ne_true_of_eq_false hm)⟩
  | sumchk hm hs =>
    rw [frameEvent_of_sum_wrong hm hs]
    exact ⟨_, if_neg (ne_true_of_eq_false hs)⟩
  | clsHum hm hs hc => rw [frameEvent_of_codeHum hm hs hc]; exact ⟨s.cycle, rfl⟩
  | clsTemp hm hs hc => rw [frameEvent_of_codeTemp hm hs hc]; exact ⟨s.cycle, rfl⟩
  | clsCo2 hm hs hc => rw [frameEvent_of_codeCo2 hm hs hc]; exact ⟨s.cycle, rfl⟩
  | clsUnk hm hs hc => rw [frameEvent_of_unknown hm hs hc]; exact ⟨s.cycle, rfl⟩

/-- For eight bytes the outcome of R181 is the event of F. -/
@[simp] theorem readOutcome_toBytes (k : Key) (b : Bool) (raw : Frame) :
    readOutcome k b (.ok raw.toBytes) = .event (frameEvent (frameSeen k b raw)) := rfl

/-- Settles O44: READ returns the event of F, which the operation selected by F yields with no register written. -/
theorem frameDecoderAgreesWithRead : Obligations.FrameDecoderAgreesWithRead := by
  intro s b raw f hp hd hf
  obtain ⟨t, ht, hout, -⟩ := exec_readOne_outcome (.ok raw.toBytes) hp hd
  obtain ⟨c, hu⟩ := exec_of_frameSelects s (decodeFrame_selects f)
  have hseen : frameSeen s.key b raw = f := hf.symm
  rw [readOutcome_toBytes, hseen] at hout
  obtain ⟨hregs, -⟩ := quiet_setCycle_yield s c (.event (frameEvent f))
  exact ⟨t, _, _, ht, hu, rfl, hout, hregs⟩

end Sys2Proof.Machine
end

section
/-! SUPPORT. The decryptor lane by lane (R100 to R105), and its inverse undone step by step (R107). -/

namespace Sys2Proof.Machine

open Sys2Proof

/-! ### Each step by byte -/

@[simp] theorem permFrame_get (raw : Frame) (i : Fin 8) : (permFrame raw).get i = raw.get (permIdx i) :=
  Frame.get_ofFn _ i

@[simp] theorem xorFrame_get (p : Frame) (k : Key) (i : Fin 8) : (xorFrame p k).get i = p.get i ^^^ k.get i :=
  Frame.get_ofFn _ i

@[simp] theorem rotrFrame_get (x : Frame) (i : Fin 8) :
    (rotrFrame x).get i = shl8 (x.get (prevIdx i)) 5 ||| shr8 (x.get i) 3 :=
  Frame.get_ofFn _ i

@[simp] theorem unmaskFrame_get (r : Frame) (i : Fin 8) : (unmaskFrame r).get i = sub8 (r.get i) (maskAt i) :=
  Frame.get_ofFn _ i

/-- The closed form of R104. -/
theorem decryptFrame_get (raw : Frame) (k : Key) (i : Fin 8) :
    (decryptFrame raw k).get i =
      sub8 (shl8 (raw.get (permIdx (prevIdx i)) ^^^ k.get (prevIdx i)) 5 ||| shr8 (raw.get (permIdx i) ^^^ k.get i) 3)
        (maskAt i) := by
  simp only [decryptFrame, unmaskFrame_get, rotrFrame_get, xorFrame_get, permFrame_get]

/-! ### DECRYPT as an operation -/

theorem exec_decrypt (raw : Frame) (s : State) : exec (.decrypt raw) s = .next (s.runDecryptor raw) := rfl

@[simp] theorem runDecryptor_d (s : State) (raw : Frame) :
    (s.runDecryptor raw).cycle.d = some (decryptFrame raw s.key) := rfl

/-- DECRYPT always completes, and the D it writes is DECRYPT(RAW, KEY). -/
theorem exec_decrypt_yields_iff (s : State) (raw d : Frame) :
    (∃ t, exec (.decrypt raw) s = .next t ∧ t.cycle.d = some d) ↔ decryptFrame raw s.key = d := by
  constructor
  · rintro ⟨t, ht, hd⟩
    cases ht
    exact Option.some.inj hd
  · rintro rfl
    exact ⟨_, exec_decrypt raw s, runDecryptor_d s raw⟩

/-! ### The bits of a byte of R (R102, R105) -/

/-- Bits 4:0 of a byte of R: `shl8` by 5 has none of them. -/
theorem rotatedByte_getLsbD_of_lt {k : Nat} (a b : Byte) (hk : k < 5) :
    (shl8 a 5 ||| shr8 b 3).getLsbD k = b.getLsbD (k + 3) := by
  simp [shl8, shr8, hk, Nat.add_comm]

/-- Bits 7:5 of a byte of R: `shr8` by 3 has none of them. -/
theorem rotatedByte_getLsbD_add_five {k : Nat} (a b : Byte) (hk : k < 3) :
    (shl8 a 5 ||| shr8 b 3).getLsbD (k + 5) = a.getLsbD k := by
  have hhigh : b.getLsbD (3 + (k + 5)) = false := BitVec.getLsbD_of_ge _ _ (by omega)
  have hlt : k + 5 < 8 := by omega
  rw [BitVec.getLsbD_or, shl8, shr8, BitVec.getLsbD_shiftLeft, BitVec.getLsbD_ushiftRight, hhigh]
  simp [hlt]

/-- `shl8` by 5 keeps bits 2:0 only. -/
theorem shl8_five_and_seven (a : Byte) : shl8 (a &&& 7) 5 = shl8 a 5 := by
  have hlow : (a &&& 7).toNat = a.toNat % 8 := Nat.and_two_pow_sub_one_eq_mod a.toNat 3
  apply BitVec.eq_of_toNat_eq
  rw [shl8_toNat, shl8_toNat, hlow]
  omega

theorem shl8_five_congr {a a' : Byte} (ha : a &&& 7 = a' &&& 7) : shl8 a 5 = shl8 a' 5 := by
  rw [← shl8_five_and_seven, ha, shl8_five_and_seven]

/-- Of two combined bytes, `shl8` by 5 reads bits 2:0 of each. -/
theorem shl8_five_xor_congr {a a' k k' : Byte} (ha : a &&& 7 = a' &&& 7) (hk : k &&& 7 = k' &&& 7) :
    shl8 (a ^^^ k) 5 = shl8 (a' ^^^ k') 5 := by
  rw [shl8, shl8, BitVec.shiftLeft_xor_distrib, BitVec.shiftLeft_xor_distrib]
  exact congrArg₂ (· ^^^ ·) (shl8_five_congr ha) (shl8_five_congr hk)

/-- Of two combined bytes, `shr8` by 3 reads bits 7:3 of each. -/
theorem shr8_three_xor_congr {a a' k k' : Byte} (ha : a >>> 3 = a' >>> 3) (hk : k >>> 3 = k' >>> 3) :
    shr8 (a ^^^ k) 3 = shr8 (a' ^^^ k') 3 := by
  rw [shr8, shr8, BitVec.ushiftRight_xor_distrib, ha, hk, ← BitVec.ushiftRight_xor_distrib]

/-! ### ENCRYPT undoes DECRYPT step by step (R107) -/

/-- The second step of ENCRYPT: the frame rotated left by 3. -/
def rotlFrame (r : Frame) : Frame := Frame.ofFn fun i => shl8 (r.get i) 3 ||| shr8 (r.get (nextIdx i)) 5

/-- The first step of ENCRYPT: the mask added byte by byte. -/
def maskFrame (d : Frame) : Frame := Frame.ofFn fun i => add8 (d.get i) (maskAt i)

theorem encryptFrame_eq (d : Frame) (k : Key) : encryptFrame d k = permFrame (xorFrame (rotlFrame (maskFrame d)) k) := rfl

@[simp] theorem rotlFrame_get (r : Frame) (i : Fin 8) :
    (rotlFrame r).get i = shl8 (r.get i) 3 ||| shr8 (r.get (nextIdx i)) 5 :=
  Frame.get_ofFn _ i

@[simp] theorem maskFrame_get (d : Frame) (i : Fin 8) : (maskFrame d).get i = add8 (d.get i) (maskAt i) :=
  Frame.get_ofFn _ i

theorem permFrame_involutive : Function.Involutive permFrame := fun raw =>
  Frame.ext_get fun i => by rw [permFrame_get, permFrame_get, permIdx_permIdx]

theorem xorFrame_involutive (k : Key) : Function.Involutive (xorFrame · k) := fun p =>
  Frame.ext_get fun i => by rw [xorFrame_get, xorFrame_get, BitVec.xor_assoc, BitVec.xor_self, BitVec.xor_zero]

theorem rotlFrame_rotrFrame (x : Frame) : rotlFrame (rotrFrame x) = x :=
  Frame.ext_get fun i => by
    rw [rotlFrame_get, rotrFrame_get, rotrFrame_get, prevIdx_nextIdx, rotate_left_of_right]

theorem rotrFrame_rotlFrame (r : Frame) : rotrFrame (rotlFrame r) = r :=
  Frame.ext_get fun i => by
    rw [rotrFrame_get, rotlFrame_get, rotlFrame_get, nextIdx_prevIdx, rotate_right_of_left]

theorem unmaskFrame_eq_iff {r d : Frame} : unmaskFrame r = d ↔ r = maskFrame d := by
  constructor
  · rintro rfl
    exact Frame.ext_get fun i => by rw [maskFrame_get, unmaskFrame_get, add8, sub8, BitVec.sub_add_cancel]
  · rintro rfl
    exact Frame.ext_get fun i => by rw [unmaskFrame_get, maskFrame_get, add8, sub8, BitVec.add_sub_cancel]

theorem rotrFrame_eq_iff {x r : Frame} : rotrFrame x = r ↔ x = rotlFrame r :=
  ⟨fun h => h ▸ (rotlFrame_rotrFrame x).symm, fun h => h ▸ rotrFrame_rotlFrame r⟩

/-- The four steps taken back in the opposite order. -/
theorem decryptFrame_eq_iff {raw d : Frame} {k : Key} : decryptFrame raw k = d ↔ raw = encryptFrame d k := by
  rw [decryptFrame, encryptFrame_eq, unmaskFrame_eq_iff, rotrFrame_eq_iff]
  exact (xorFrame_involutive k).eq_iff.trans permFrame_involutive.eq_iff

/-! ### The mask (R31) -/

/-- The nibble-swapped codes of MASK_TEXT. -/
theorem maskAt_eq (i : Fin 8) : maskAt i = Frame.get ⟨0x84, 0x47, 0x56, 0xd6, 0x07, 0x93, 0x93, 0x56⟩ i := by
  revert i; decide

theorem unmaskFrame_eq (r : Frame) :
    unmaskFrame r =
      ⟨r.b0 - 0x84, r.b1 - 0x47, r.b2 - 0x56, r.b3 - 0xd6, r.b4 - 0x07, r.b5 - 0x93, r.b6 - 0x93, r.b7 - 0x56⟩ := by
  simp only [unmaskFrame, sub8, maskAt_eq]
  rfl

/-! ### The statements -/

/-- Settles O19: the two parts of a byte of R, each where the other has no bit. -/
theorem rotateBitByBit : Obligations.RotateBitByBit := fun _ x => by
  refine ⟨rotrFrame x, rfl, fun i => ?_⟩
  rw [rotrFrame_get]
  exact ⟨fun _ hk => rotatedByte_getLsbD_of_lt _ _ hk, fun _ hk => rotatedByte_getLsbD_add_five _ _ hk⟩

/-- Settles O24: DECRYPT's equation solved for the report. -/
theorem everyFrameHasOneReport : Obligations.EveryFrameHasOneReport := fun s d raw =>
  (exec_decrypt_yields_iff s raw d).trans decryptFrame_eq_iff

/-- Settles O25: in the closed form of D[i] each of the two shifts reads only the bits the statement fixes. -/
theorem decryptedByteDependsOnTwo : Obligations.DecryptedByteDependsOnTwo := by
  intro s s' raw raw' i hraw hkey hrawPrev hkeyPrev
  refine ⟨_, _, _, _, exec_decrypt raw s, exec_decrypt raw' s', runDecryptor_d s raw, runDecryptor_d s' raw', ?_⟩
  have hhigh := shl8_five_xor_congr hrawPrev hkeyPrev
  have hlow := shr8_three_xor_congr hraw hkey
  rw [decryptFrame_get, decryptFrame_get, prevIdx, hhigh, hlow]

/-- Settles O17: the eight assignments, and the involution on the frame they leave. -/
theorem permMovesWholeBytes : Obligations.PermMovesWholeBytes := fun _ _ _ _ _ _ _ _ _ => ⟨rfl, rfl⟩

/-- Settles O18: the eight lanes of X. -/
theorem xorkPairsKeyByPosition : Obligations.XorkPairsKeyByPosition := fun _ _ => rfl

/-- Settles O21: the mask bytes are those of R31. -/
theorem unmaskSubtractsPerByte : Obligations.UnmaskSubtractsPerByte := fun s r =>
  congrArg (fun d => Host.Outcome.next (s.setCycle { s.cycle with d := some d })) (unmaskFrame_eq r)

/-- Settles O22: D is the decrypted frame, byte by byte. -/
theorem decryptClosedForm : Obligations.DecryptClosedForm := fun s raw =>
  ⟨_, _, _, _, exec_decrypt raw s, decryptFrame_get raw s.key⟩

/-- Settles O23: each stage leaves the value the next one takes, and the last leaves what DECRYPT leaves. -/
theorem decryptIsFourStages : Obligations.DecryptIsFourStages := fun _ _ =>
  ⟨_, _, _, _, _, _, rfl, rfl, rfl, rfl, rfl, rfl, rfl⟩

end Sys2Proof.Machine
end

section
/-! SUPPORT. The session commands: an equation per command and answer where it is admitted, one refusal where it is not, and the
statements of 41_session_open.md. -/

namespace Sys2Proof.Machine

open Sys2Proof

/-! ### Admission (R125) -/

/-- The row of the admission table that an operation stands under, RECV and IOCHK under READ's (notes/assumptions/3.md).  The other
stages stand under none. -/
def admissionRow : Instr → Option Command
  | .configKey _ | .configDebug _ | .configTimeout _ => some .config
  | .openSession _ => some .openSession
  | .closeSession => some .closeSession
  | .readOne _ | .recv _ | .iochk _ => some .read
  | _ => none

/-- An operation is refused by name in every phase that its row does not admit it in. -/
theorem exec_of_not_admits {i : Instr} {c : Command} {s : State} {p : Phase} (hp : s.phase = p)
    (hc : admissionRow i = some c) (ha : admits c p = false) : exec i s = .refused (.notAdmitted c p) := by
  subst hp
  cases i with
  | configKey _ | configDebug _ | configTimeout _ | openSession _ | closeSession | readOne _ | recv _ | iochk _ =>
    cases hc; exact ifAdmitted_of_not_admits _ ha
  | _ => cases hc

/-! ### CONFIG while CLOSED (R120, R121) -/

theorem exec_configKey {s : State} (k : Key) (hp : s.phase = .closed) :
    exec (.configKey k) s = .next ((s.setKey k).respond .ok) :=
  ifAdmitted_of_admits _ (admits_config.2 hp)

theorem exec_configDebug {s : State} (d : Bool) (hp : s.phase = .closed) :
    exec (.configDebug d) s = .next ((s.setDebug d).respond .ok) :=
  ifAdmitted_of_admits _ (admits_config.2 hp)

/-- CONFIG.TIMEOUT completes whatever the setting is (D23). -/
theorem exec_configTimeout {s : State} (t : TimeoutSetting) (hp : s.phase = .closed) :
    exec (.configTimeout t) s =
      .next ((timeoutOf t).elim (s.respond .invalidTimeout) fun τ => (s.setTimeout τ).respond .ok) := by
  refine (ifAdmitted_of_admits _ (admits_config.2 hp)).trans ?_
  cases timeoutOf t <;> rfl

theorem timeoutOf_of_neg {d : Rat} (hd : d < 0) : timeoutOf (.duration d) = none :=
  if_pos (.inl (Rat.num_neg.2 hd))

theorem timeoutOf_of_nonneg {d : Rat} (hd : 0 ≤ d) :
    timeoutOf (.duration d) = if wholeMs d ≤ Config.timeoutMaxMs then some (.ms (wholeMs d)) else none := by
  have hnum : ¬ d.num < 0 := not_lt.2 (Rat.num_nonneg.2 hd)
  simp only [timeoutOf, hnum, false_or, ← not_le, ite_not]

/-- D19's bound is tested on the whole number of milliseconds, and a duration that is not negative fails by nothing else. -/
theorem exec_configTimeout_duration {s : State} {d : Rat} (hp : s.phase = .closed) (hd : 0 ≤ d) :
    exec (.configTimeout (.duration d)) s =
      if wholeMs d ≤ Config.timeoutMaxMs then .next ((s.setTimeout (.ms (wholeMs d))).respond .ok)
      else .next (s.respond .invalidTimeout) := by
  rw [exec_configTimeout _ hp, timeoutOf_of_nonneg hd]
  split <;> rfl

theorem exec_configTimeout_natCast {s : State} {n : Nat} (hp : s.phase = .closed) (hn : n ≤ Config.timeoutMaxMs) :
    exec (.configTimeout (.duration n)) s = .next ((s.setTimeout (.ms n)).respond .ok) := by
  rw [exec_configTimeout_duration hp n.cast_nonneg, wholeMs_natCast, if_pos hn]

/-- A duration with a fraction that is at most `m` lies strictly below `m`, so that rounding it up does not pass `m`. -/
theorem wholeMs_le_of_den_ne_one {d : Rat} {m : Nat} (hd : 0 ≤ d) (hfrac : d.den ≠ 1) (hm : d ≤ m) : wholeMs d ≤ m := by
  have hne : d ≠ m := fun h => hfrac (h ▸ Rat.den_natCast m)
  have hfloor : ⌊d⌋₊ < m := (Nat.floor_lt hd).2 (lt_of_le_of_ne hm hne)
  have hwhole := wholeMs_floor hd
  omega

/-- A duration of `m` or more does not fall below `m` by rounding down. -/
theorem le_wholeMs {d : Rat} {m : Nat} (hd : 0 ≤ d) (hm : m ≤ d) : m ≤ wholeMs d := by
  have hfloor : m ≤ ⌊d⌋₊ := Nat.le_floor hm
  have hwhole := wholeMs_floor hd
  omega

/-! ### OPEN while CLOSED, CLOSE in a session (R122 to R126) -/

theorem exec_openSession_err {s : State} (hp : s.phase = .closed) :
    exec (.openSession .err) s =
      .next ((s.call (.transportOpen Config.vendorId Config.productId false)).respond .transportError) :=
  ifAdmitted_of_admits _ (admits_open.2 hp)

theorem exec_openSession_ok {s : State} (fw : Nat) (feat : WriteAnswer) (hp : s.phase = .closed) :
    exec (.openSession (.ok fw feat)) s = .next (s.openWith fw feat) :=
  ifAdmitted_of_admits _ (admits_open.2 hp)

/-- OPEN completes whatever the transport answers. -/
theorem exec_openSession_completes {s : State} (r : OpenReply) (hp : s.phase = .closed) :
    ∃ t, exec (.openSession r) s = .next t := by
  cases r with
  | err => exact ⟨_, exec_openSession_err hp⟩
  | ok fw feat => exact ⟨_, exec_openSession_ok fw feat hp⟩

@[simp] theorem State.openWith_phase (s : State) (fw : Nat) (feat : WriteAnswer) : (s.openWith fw feat).phase = .opened := rfl

@[simp] theorem State.openWith_key (s : State) (fw : Nat) (feat : WriteAnswer) : (s.openWith fw feat).key = s.key := by
  rw [openWith_eq]

theorem exec_closeSession {s : State} (hp : s.phase ≠ .closed) :
    exec .closeSession s = .next ((s.call .transportRelease).resetRegisters.respond .ok) :=
  ifAdmitted_of_admits _ (admits_close.2 hp)

/-! ### The statements -/

/-- Settles O15: where the table admits a command its equation gives the next state, and elsewhere its row refuses it. -/
theorem admissionByPhase : Obligations.AdmissionByPhase := by
  refine fun s => ⟨fun hp => ?closed, fun hp => ?opened, fun hp => ?ended⟩
  case closed =>
    exact ⟨fun k => ⟨_, exec_configKey k hp⟩, fun d => ⟨_, exec_configDebug d hp⟩,
      fun t => ⟨_, exec_configTimeout t hp⟩, fun r => exec_openSession_completes r hp,
      fun _ => exec_of_not_admits hp rfl rfl, exec_of_not_admits hp rfl rfl⟩
  case opened =>
    refine ⟨fun _ => exec_of_not_admits hp rfl rfl, fun _ => exec_of_not_admits hp rfl rfl,
      fun _ => exec_of_not_admits hp rfl rfl, fun _ => exec_of_not_admits hp rfl rfl, fun a hd => ?_,
      _, exec_closeSession (by simp [hp])⟩
    obtain ⟨b, hb⟩ := Option.ne_none_iff_exists'.1 hd
    obtain ⟨t, ht, -⟩ := exec_readOne_outcome a hp hb
    exact ⟨t, ht⟩
  case ended =>
    exact ⟨fun _ => exec_of_not_admits hp rfl rfl, fun _ => exec_of_not_admits hp rfl rfl,
      fun _ => exec_of_not_admits hp rfl rfl, fun _ => exec_of_not_admits hp rfl rfl,
      fun _ => exec_of_not_admits hp rfl rfl, _, exec_closeSession (by simp [hp])⟩

/-- Settles O8: the two equations while CLOSED, and CONFIG's row elsewhere. -/
theorem configWritesKeyAndDebug : Obligations.ConfigWritesKeyAndDebug := by
  refine fun s k d => ⟨fun hp => ⟨exec_configKey k hp, exec_configDebug d hp⟩, fun hp => ?_⟩
  have ha : admits .config s.phase = false := Bool.eq_false_iff.2 (mt admits_config.1 hp)
  exact ⟨exec_of_not_admits rfl rfl ha, exec_of_not_admits rfl rfl ha⟩

/-- Settles O9: a whole number of milliseconds meets D19's bound as it stands, and a negative duration is not representable. -/
theorem configTimeoutSetsBoundOrRejects : Obligations.ConfigTimeoutSetsBoundOrRejects := by
  refine fun s => ⟨fun hp => ⟨exec_configTimeout .none hp, fun n hn => exec_configTimeout_natCast hp hn,
    fun n hn => ?_, fun d hd => ?_⟩, fun hp t => ?_⟩
  · rw [exec_configTimeout_duration hp n.cast_nonneg, wholeMs_natCast, if_neg (not_le.2 hn)]
    rfl
  · rw [exec_configTimeout _ hp, timeoutOf_of_neg hd]
    rfl
  · exact exec_of_not_admits rfl rfl (Bool.eq_false_iff.2 (mt admits_config.1 hp))

/-- Settles O10: the number taken is beside the duration, and it lies on the side of the bound that the duration lies on. -/
theorem fractionalTimeoutCompletes : Obligations.FractionalTimeoutCompletes := by
  intro s d hp hd hfrac
  have hexec := exec_configTimeout_duration hp hd
  refine ⟨⟨wholeMs d, wholeMs_floor hd, hexec⟩, fun hle => ⟨wholeMs d, wholeMs_floor hd, ?_⟩, fun hge => ?_⟩
  · exact hexec.trans (if_pos (wholeMs_le_of_den_ne_one hd hfrac hle))
  · have hwhole : Config.timeoutMaxMs + 1 ≤ wholeMs d := le_wholeMs hd (by exact_mod_cast hge)
    exact hexec.trans (if_neg (by omega))

/-- Settles O11: the first setting leaves the block CLOSED, so that the second is admitted and writes over it. -/
theorem lastConfigurationWins : Obligations.LastConfigurationWins := by
  refine fun s hp => ⟨fun k k' => ?_, fun d d' => ?_, fun m n hm hn => ?_⟩
  · rw [exec_configKey k hp, andThen_next, exec_configKey k' (by simp [hp])]
    simp [State.setKey, State.respond]
  · rw [exec_configDebug d hp, andThen_next, exec_configDebug d' (by simp [hp])]
    simp [State.setDebug, State.respond]
  · rw [exec_configTimeout_natCast hp hm, andThen_next, exec_configTimeout_natCast (by simp [hp]) hn]
    simp [State.setTimeout, State.respond]

/-- Settles O12: OPEN's whole next state for each of its two answers, and OPEN's row elsewhere. -/
theorem openStartsTheSessionOrFails : Obligations.OpenStartsTheSessionOrFails := by
  refine fun s => ⟨fun hp => ⟨fun fw feat => ?_, exec_openSession_err hp⟩, fun hp r => ?_⟩
  · rw [exec_openSession_ok fw feat hp, openWith_eq]
    rfl
  · exact exec_of_not_admits rfl rfl (Bool.eq_false_iff.2 (mt admits_open.1 hp))

/-- Settles O13: a failed OPEN leaves the block CLOSED with its KEY, which is what an OPEN starts from. -/
theorem failedOpenLeavesNothing : Obligations.FailedOpenLeavesNothing := fun _ hp =>
  ⟨_, exec_openSession_err hp, ⟨rfl, rfl, rfl, rfl, rfl⟩, rfl, rfl, rfl, rfl, fun fw feat =>
    ⟨_, exec_openSession_ok fw feat hp, State.openWith_phase .., State.openWith_key ..⟩⟩

/-- Settles O14: CLOSE's writes are the values of reset, and CLOSED is the one phase that its row leaves out. -/
theorem closeReturnsToReset : Obligations.CloseReturnsToReset := fun _ =>
  ⟨exec_closeSession, fun hp => exec_of_not_admits hp rfl rfl⟩

/-- Settles O28: both stages stand under READ's row. -/
theorem recvAndIochkNeedTheSession : Obligations.RecvAndIochkNeedTheSession := by
  intro s hp
  have ha : admits .read s.phase = false := Bool.eq_false_iff.2 (mt admits_read.1 hp)
  exact ⟨fun _ => exec_of_not_admits rfl rfl ha, fun _ => exec_of_not_admits rfl rfl ha⟩

end Sys2Proof.Machine
end

section
/-! SUPPORT. The stages from the transport's answer to a valid frame, an equation per answer of the stage's test (R140 to R145), the
events of valid frames and of the others (R146, R168), and the statements of 42_read_validate.md. -/

namespace Sys2Proof.Machine

open Sys2Proof

/-! ### The checks on F in the spec's numbers -/

theorem markOk_eq_false_iff {f : Frame} : markOk f = false ↔ f.b4 ≠ Config.marker := beq_eq_false_iff_ne

theorem sumOk_eq_false_iff {f : Frame} : sumOk f = false ↔ checksum f ≠ f.b3 := beq_eq_false_iff_ne

/-- Wrapping after each of the two additions or once at the end comes to the same (R145). -/
theorem checksum_toNat (f : Frame) : (checksum f).toNat = (f.b0.toNat + f.b1.toNat + f.b2.toNat) % 256 := by
  rw [checksum, add8_toNat, add8_toNat, Nat.mod_add_mod]
  rfl

theorem sumOk_iff_toNat {f : Frame} :
    sumOk f = true ↔ (f.b0.toNat + f.b1.toNat + f.b2.toNat) % 256 = f.b3.toNat := by
  rw [← checksum_toNat, BitVec.toNat_inj]
  exact sumOk_iff

/-- Valid protocol data (R146): the marker, and the sum in the integers. -/
theorem validFrame_iff {f : Frame} :
    validFrame f = true ↔ f.b4 = Config.marker ∧ (f.b0.toNat + f.b1.toNat + f.b2.toNat) % 256 = f.b3.toNat := by
  rw [validFrame, Bool.and_eq_true, markOk_iff, sumOk_iff_toNat]

/-! ### RECV and IOCHK while OPEN (R140, R141) -/

theorem exec_recv_answered {s : State} (a : ReadAnswer) (hp : s.phase = .opened) :
    exec (.recv (.answered a)) s = .next (s.receive a) :=
  ifAdmitted_of_admits _ (admits_read.2 hp)

theorem receive_ioerr (s : State) :
    s.receive .ioerr = (s.call (.transportRead s.timeout .ioerr)).setCycle Cycle.empty := rfl

theorem receive_of_length_ne (s : State) {bytes : List Byte} (hl : bytes.length ≠ 8) :
    s.receive (.ok bytes) =
      (s.call (.transportRead s.timeout (.ok bytes))).setCycle { Cycle.empty with n := some bytes.length } := by
  simp [State.receive, ioOk, countOf, lenOk_eq_false.2 hl, Cycle.empty]

theorem receive_of_length_eq (s : State) {bytes : List Byte} (hl : bytes.length = 8) :
    s.receive (.ok bytes) =
      (s.call (.transportRead s.timeout (.ok bytes))).setCycle
        { Cycle.empty with n := some 8, raw := some (Frame.ofBytes bytes) } := by
  simp [State.receive, ioOk, countOf, bytesOf, hl, lenOk_eq_true.2]

theorem exec_iochk_ioerr {s : State} (hp : s.phase = .opened) :
    exec (.iochk .ioerr) s =
      .next (((s.setCycle { s.cycle with ioOk := some false }).setPhase .ended).yield .endOfSequence) :=
  ifAdmitted_of_admits _ (admits_read.2 hp)

theorem exec_iochk_ok {s : State} (bytes : List Byte) (hp : s.phase = .opened) :
    exec (.iochk (.ok bytes)) s = .next (s.setCycle { s.cycle with ioOk := some true }) :=
  ifAdmitted_of_admits _ (admits_read.2 hp)

/-! ### LENCHK, DECSEL, MARKCHK and SUMCHK in any phase (R142 to R145) -/

theorem exec_lenchk_of_lenOk {n : Nat} (s : State) (h : lenOk n = true) :
    exec (.lenchk n) s = .next (s.setCycle { s.cycle with lenOk := some true }) := by
  simp only [exec, execLenchk, h, if_true]

theorem exec_lenchk_of_not_lenOk {n : Nat} (s : State) (h : lenOk n = false) :
    exec (.lenchk n) s =
      .next ((s.setCycle { s.cycle with lenOk := some false }).yield (.event .wrongPacket)) := by
  simp only [exec, execLenchk, h, Bool.false_eq_true, if_false]

theorem exec_decsel {s : State} {b : Bool} (raw : Frame) (hd : s.decEn = some b) :
    exec (.decsel raw) s = .next (s.selectFrame b raw) := by
  simp only [exec, execDecsel, hd]

theorem exec_markchk_of_markOk {f : Frame} (s : State) (h : markOk f = true) :
    exec (.markchk f) s = .next (s.setCycle { s.cycle with markOk := some true }) := by
  simp only [exec, execMarkchk, h, if_true]

theorem exec_markchk_of_not_markOk {f : Frame} (s : State) (h : markOk f = false) :
    exec (.markchk f) s =
      .next ((s.setCycle { s.cycle with markOk := some false }).yield (.event (.unexpectedData f))) := by
  simp only [exec, execMarkchk, h, Bool.false_eq_true, if_false]

theorem exec_sumchk_of_sumOk {f : Frame} (s : State) (h : sumOk f = true) :
    exec (.sumchk f) s = .next (s.setCycle { s.cycle with sum := some (checksum f), sumOk := some true }) := by
  simp only [exec, execSumchk, h, if_true]

theorem exec_sumchk_of_not_sumOk {f : Frame} (s : State) (h : sumOk f = false) :
    exec (.sumchk f) s =
      .next ((s.setCycle { s.cycle with sum := some (checksum f), sumOk := some false }).yield
        (.event .checksumError)) := by
  simp only [exec, execSumchk, h, Bool.false_eq_true, if_false]

/-! ### The events of valid frames and of the others (R146, R168) -/

theorem co2Event_eq_or (v : BitVec 16) : co2Event v = .relativeConcentration v ∨ co2Event v = .uninitializedData := by
  unfold co2Event
  split
  · exact .inr rfl
  · exact .inl rfl

/-- A valid frame's code decides among the classifications (R165). -/
theorem frameEvent_of_validFrame {f : Frame} (hv : validFrame f = true) :
    (∃ v, frameEvent f = .humidity v) ∨ (∃ v, frameEvent f = .ambientTemperature v) ∨
      (∃ v, frameEvent f = .relativeConcentration v) ∨ frameEvent f = .uninitializedData ∨
      frameEvent f = .unknownCode f := by
  obtain ⟨hm, hs⟩ : markOk f = true ∧ sumOk f = true := Bool.and_eq_true_iff.1 hv
  by_cases hhum : f.get 0 = Config.codeHum
  · exact .inl ⟨_, frameEvent_of_codeHum hm hs hhum⟩
  by_cases htemp : f.get 0 = Config.codeTemp
  · exact .inr (.inl ⟨_, frameEvent_of_codeTemp hm hs htemp⟩)
  by_cases hco2 : f.get 0 = Config.codeCo2
  · have he := frameEvent_of_codeCo2 hm hs hco2
    obtain hlow | hhigh := co2Event_eq_or (valueOf f)
    · exact .inr (.inr (.inl ⟨_, he.trans hlow⟩))
    · exact .inr (.inr (.inr (.inl (he.trans hhigh))))
  · have hc : knownCode (f.get 0) = false := knownCode_eq_false.2 ⟨hhum, htemp, hco2⟩
    exact .inr (.inr (.inr (.inr (frameEvent_of_unknown hm hs hc))))

/-- A frame that is not valid fails the marker check, or passes it and fails the sum. -/
theorem frameEvent_of_not_validFrame {f : Frame} (hv : validFrame f = false) :
    frameEvent f = .unexpectedData f ∨ frameEvent f = .checksumError := by
  cases hm : markOk f with
  | false => exact .inl (frameEvent_of_marker_wrong hm)
  | true => exact .inr (frameEvent_of_sum_wrong hm (by simpa [validFrame, hm] using hv))

/-! ### The statements -/

/-- Settles O46: a READ of a report returns the event of F, and the two clauses are the valid frames and the others. -/
theorem onlyValidFramesAreClassified : Obligations.OnlyValidFramesAreClassified := by
  intro s b raw f hp hd hf
  obtain ⟨t, ht, hout, -⟩ := exec_readOne_outcome (.ok raw.toBytes) hp hd
  have hseen : frameSeen s.key b raw = f := hf.symm
  rw [readOutcome_toBytes, hseen] at hout
  refine ⟨t, frameEvent f, ht, hout, fun hv => ?_, fun hv => ?_⟩
  · exact frameEvent_of_validFrame (validFrame_iff.2 hv)
  · exact frameEvent_of_not_validFrame (Bool.eq_false_iff.2 (mt validFrame_iff.1 hv))

/-- Settles O26: the one call, and the working values for each kind of answer. -/
theorem recvTakesOneReport : Obligations.RecvTakesOneReport := by
  refine fun s hp => ⟨?ioerr, fun bytes hl => ?otherCount, fun a b c d e f g h => ?eightBytes⟩
  case ioerr => rw [exec_recv_answered _ hp, receive_ioerr]; rfl
  case otherCount => rw [exec_recv_answered _ hp, receive_of_length_ne s hl]; rfl
  case eightBytes => rw [exec_recv_answered _ hp, receive_of_length_eq s rfl]; rfl

/-- Settles O27: the equation of each answer. -/
theorem iochkEndsTheSequence : Obligations.IochkEndsTheSequence := fun _ hp =>
  ⟨exec_iochk_ioerr hp, fun bytes => exec_iochk_ok bytes hp⟩

/-- Settles O29: LEN_OK is N = 8. -/
theorem lenchkWantsEight : Obligations.LenchkWantsEight := fun s _ =>
  ⟨fun hn => exec_lenchk_of_lenOk s (lenOk_eq_true.2 hn), fun hn => exec_lenchk_of_not_lenOk s (lenOk_eq_false.2 hn)⟩

/-- Settles O30: in decrypt mode F is the D that DECRYPT has just written. -/
theorem decselChoosesByDecEn : Obligations.DecselChoosesByDecEn := fun s raw =>
  ⟨exec_decsel raw, fun hd => ⟨_, exec_decrypt raw s, exec_decsel raw hd⟩⟩

/-- Settles O31: MARK_OK is F[4] = MARKER. -/
theorem markchkComparesByteFour : Obligations.MarkchkComparesByteFour := fun s _ =>
  ⟨fun hm => exec_markchk_of_markOk s (markOk_iff.2 hm),
    fun hm => exec_markchk_of_not_markOk s (markOk_eq_false_iff.2 hm)⟩

/-- Settles O32: SUM is the checksum, and SUM_OK its comparison with F[3]. -/
theorem sumchkComparesLowByte : Obligations.SumchkComparesLowByte := fun s f =>
  ⟨checksum f, checksum_toNat f, fun hs => exec_sumchk_of_sumOk s (sumOk_iff.2 hs),
    fun hs => exec_sumchk_of_not_sumOk s (sumOk_eq_false_iff.2 hs)⟩

end Sys2Proof.Machine
end

section
/-! SUPPORT. The classifier in the spec's numbers: the code table, the CO2 limit, and the two scaled results (R161 to R166), with the
statements of 43_classify.md. -/

namespace Sys2Proof.Machine

open Sys2Proof

/-! ### The code table in numbers (R32, R165) -/

theorem eq_codeHum_iff {c : Byte} : c = Config.codeHum ↔ c.toNat = 0x41 := BitVec.toNat_inj.symm

theorem eq_codeTemp_iff {c : Byte} : c = Config.codeTemp ↔ c.toNat = 0x42 := BitVec.toNat_inj.symm

theorem eq_codeCo2_iff {c : Byte} : c = Config.codeCo2 ↔ c.toNat = 0x50 := BitVec.toNat_inj.symm

/-- Each row of the table is selected by its own code only, the three codes being distinct. -/
theorem classOf_eq_iff (c : Byte) :
    (classOf c = .hum ↔ c = Config.codeHum) ∧ (classOf c = .temp ↔ c = Config.codeTemp) ∧
      (classOf c = .co2 ↔ c = Config.codeCo2) ∧
      (classOf c = .unk ↔ c ≠ Config.codeHum ∧ c ≠ Config.codeTemp ∧ c ≠ Config.codeCo2) := by
  by_cases hhum : c = Config.codeHum
  · subst hhum; decide
  by_cases htemp : c = Config.codeTemp
  · subst htemp; decide
  by_cases hco2 : c = Config.codeCo2
  · subst hco2; decide
  · have hunk : classOf c = .unk := classOf_of_unknown (knownCode_eq_false.2 ⟨hhum, htemp, hco2⟩)
    simp [hunk, hhum, htemp, hco2]

/-! ### CLS.CO2 on the two sides of its limit (R163) -/

theorem aboveCo2Limit_iff {v : BitVec 16} : aboveCo2Limit v = true ↔ 3000 < v.toNat := decide_eq_true_iff

theorem co2Event_of_le {v : BitVec 16} (h : v.toNat ≤ 3000) : co2Event v = .relativeConcentration v :=
  if_neg (mt aboveCo2Limit_iff.1 (not_lt.2 h))

theorem co2Event_of_gt {v : BitVec 16} (h : 3000 < v.toNat) : co2Event v = .uninitializedData :=
  if_pos (aboveCo2Limit_iff.2 h)

theorem exec_clsCo2 (v : BitVec 16) (pad : Pad) (s : State) :
    exec (.clsCo2 v pad) s = .next (s.yield (.event (co2Event v))) := rfl

/-! ### The scaled results (R161, R162, R166) -/

theorem eventNumber_humidity (v : BitVec 16) : eventNumber (.humidity v) = some (humidityOf v) := rfl

theorem eventNumber_ambientTemperature (v : BitVec 16) :
    eventNumber (.ambientTemperature v) = some (temperatureOf v) := rfl

/-- A value as a number is at most 65535 (R160). -/
theorem toNat_cast_le (v : BitVec 16) : (v.toNat : Rat) ≤ 65535 := by
  exact_mod_cast Nat.le_of_lt_succ v.isLt

theorem humidityOf_nonneg (v : BitVec 16) : 0 ≤ humidityOf v := by
  unfold humidityOf
  positivity

theorem humidityOf_le (v : BitVec 16) : humidityOf v ≤ 65535 / 100 :=
  div_le_div_of_nonneg_right (toNat_cast_le v) (by norm_num)

theorem le_temperatureOf (v : BitVec 16) : -(27315 / 100) ≤ temperatureOf v := by
  have h : (0 : Rat) ≤ v.toNat := v.toNat.cast_nonneg
  unfold temperatureOf
  linarith

theorem temperatureOf_le (v : BitVec 16) : temperatureOf v ≤ 38227875 / 10000 := by
  have h := toNat_cast_le v
  unfold temperatureOf
  linarith

/-- R162's second form: 273.15 is 21852 / 80. -/
theorem temperatureOf_eq (v : BitVec 16) : temperatureOf v = (5 * (v.toNat : Rat) - 21852) / 80 := by
  unfold temperatureOf
  ring

/-- The sign of t is that of the whole number 5 V - 21852, which changes between V = 4370 and V = 4371. -/
theorem temperatureOf_neg_iff (v : BitVec 16) : temperatureOf v < 0 ↔ v.toNat ≤ 4370 := by
  have hsign : temperatureOf v < 0 ↔ 5 * (v.toNat : Rat) < 21852 := by
    rw [temperatureOf_eq, div_lt_iff₀ (by norm_num), zero_mul, sub_neg]
  have hwhole : 5 * (v.toNat : Rat) < 21852 ↔ 5 * v.toNat < 21852 := by norm_cast
  rw [hsign, hwhole]
  omega

/-- 21852 is no multiple of 5. -/
theorem temperatureOf_ne_zero (v : BitVec 16) : temperatureOf v ≠ 0 := by
  intro h
  have hzero : 5 * (v.toNat : Rat) = 21852 := by
    rw [temperatureOf_eq] at h
    linarith
  have hwhole : 5 * v.toNat = 21852 := by exact_mod_cast hzero
  omega

/-! ### The statements -/

/-- Settles O58: the bounds of V carried through the two scalings, and the sign of 5 V - 21852. -/
theorem scaledResultsAreBounded : Obligations.ScaledResultsAreBounded := fun v =>
  ⟨humidityOf v, temperatureOf v, eventNumber_humidity v, eventNumber_ambientTemperature v, humidityOf_nonneg v,
    humidityOf_le v, le_temperatureOf v, temperatureOf_le v, temperatureOf_neg_iff v, temperatureOf_ne_zero v⟩

/-- Settles O33: V is u16(F[1], F[2]). -/
theorem valueIsBigEndian : Obligations.ValueIsBigEndian := fun _ hi lo => ⟨u16 hi lo, u16_toNat hi lo, rfl⟩

/-- Settles O34: the row that DISPATCH writes, with the codes as numbers. -/
theorem dispatchSelectsByCode : Obligations.DispatchSelectsByCode := by
  refine fun s code => ⟨classOf code, rfl, ?_⟩
  simpa only [eq_codeHum_iff, eq_codeTemp_iff, eq_codeCo2_iff, ne_eq] using classOf_eq_iff code

/-- Settles O35: CLS.HUM's equation, and the number of its event. -/
theorem humidityIsValueOverHundred : Obligations.HumidityIsValueOverHundred := fun _ v _ => ⟨rfl, eventNumber_humidity v⟩

/-- Settles O36: CLS.TEMP's equation, and the two forms of the number of its event. -/
theorem temperatureIsScaledAndShifted : Obligations.TemperatureIsScaledAndShifted := fun _ v _ =>
  ⟨rfl, eventNumber_ambientTemperature v, congrArg some (temperatureOf_eq v)⟩

/-- Settles O37: the event of each side of the limit. -/
theorem co2AboveLimitIsRejected : Obligations.Co2AboveLimitIsRejected := by
  refine fun s v pad => ⟨fun hle => ?_, fun hgt => ?_⟩
  · rw [exec_clsCo2, co2Event_of_le hle]; rfl
  · rw [exec_clsCo2, co2Event_of_gt hgt]; rfl

/-- Settles O38: CLS.UNK's equation. -/
theorem unknownCodeCarriesTheFrame : Obligations.UnknownCodeCarriesTheFrame := fun _ _ => rfl

end Sys2Proof.Machine
end

section
/-! SUPPORT. The read cycle: READ's nine outcomes, READ beside its stages run one after another, what a command returns, the
debug tap and the export points, with the statements of 44_read_cycle.md. -/

namespace Sys2Proof.Machine

open Sys2Proof

/-! ### READ while OPEN, an equation per cause (R180, R181) -/

theorem exec_readOne_ioerr {s : State} (hp : s.phase = .opened) :
    exec (.readOne (.answered .ioerr)) s =
      .next (((s.call (.transportRead s.timeout .ioerr)).setPhase .ended).finishRead [] none .endOfSequence) := by
  rw [exec_readOne_answered _ hp, processAnswer_ioerr]

theorem exec_readOne_of_length_ne {s : State} {bytes : List Byte} (hp : s.phase = .opened) (hl : bytes.length ≠ 8) :
    exec (.readOne (.answered (.ok bytes))) s = .next (s.afterEvent bytes none .wrongPacket) := by
  rw [exec_readOne_answered _ hp, processAnswer_of_length_ne _ hl, finishRead_call_event]

theorem exec_readOne_toBytes {s : State} {b : Bool} {raw f : Frame} (hp : s.phase = .opened) (hd : s.decEn = some b)
    (hf : frameSeen s.key b raw = f) :
    exec (.readOne (.answered (.ok raw.toBytes))) s = .next (s.afterEvent raw.toBytes (some f) (frameEvent f)) := by
  subst hf
  rw [exec_readOne_answered _ hp, processAnswer_of_decEn_some raw.length_toBytes ((s.call_decEn _).trans hd)]
  exact congrArg _ (finishRead_call_event ..)

theorem exec_readOne_never {s : State} (hp : s.phase = .opened) :
    exec (.readOne .never) s = .fault .transportNeverAnswers :=
  ifAdmitted_of_admits _ (admits_read.2 hp)

theorem exec_recv_never {s : State} (hp : s.phase = .opened) : exec (.recv .never) s = .fault .transportNeverAnswers :=
  ifAdmitted_of_admits _ (admits_read.2 hp)

/-- V of a decoded frame as a number (R75). -/
theorem valueOf_toNat (f : Frame) : (valueOf f).toNat = f.b1.toNat * 256 + f.b2.toNat := u16_toNat f.b1 f.b2

/-- Settles O40: the equation of each cause; for eight bytes each clause describes a row of R77, and the event is that row's. -/
theorem readHasNineOutcomes : Obligations.ReadHasNineOutcomes := by
  intro s b hp hd
  refine ⟨?ioerr, fun bytes hl => exec_readOne_of_length_ne hp hl, fun raw f hf => ?frame⟩
  case ioerr =>
    rw [exec_readOne_ioerr hp, finishRead_eq]
    simp [State.call, State.setPhase]
  case frame =>
    intro gives sum v
    have hgives : ∀ e, frameEvent f = e → gives e := fun e he => he ▸ exec_readOne_toBytes hp hd hf.symm
    have hmark : f.b4 = 0x0d → markOk f = true := markOk_iff.2
    have hsum : sum → sumOk f = true := sumOk_iff_toNat.2
    have hv : (valueOf f).toNat = f.b1.toNat * 256 + f.b2.toNat := valueOf_toNat f
    refine ⟨fun hm => hgives _ ?marker, fun hm hs => hgives _ ?checksum, fun hm hs hc => hgives _ ?humidity,
      fun hm hs hc => hgives _ ?temperature, fun hm hs hc hle => hgives _ ?co2, fun hm hs hc hgt => hgives _ ?co2AboveLimit,
      fun hm hs hhum htemp hco2 => hgives _ ?unknown⟩
    case marker => exact frameEvent_of_marker_wrong (markOk_eq_false_iff.2 hm)
    case checksum => exact frameEvent_of_sum_wrong (hmark hm) (Bool.eq_false_iff.2 (mt sumOk_iff_toNat.1 hs))
    case humidity => exact frameEvent_of_codeHum (hmark hm) (hsum hs) hc
    case temperature => exact frameEvent_of_codeTemp (hmark hm) (hsum hs) hc
    case co2 => exact (frameEvent_of_codeCo2 (hmark hm) (hsum hs) hc).trans (co2Event_of_le (hv.trans_le hle))
    case co2AboveLimit =>
      exact (frameEvent_of_codeCo2 (hmark hm) (hsum hs) hc).trans (co2Event_of_gt (hgt.trans_eq hv.symm))
    case unknown => exact frameEvent_of_unknown (hmark hm) (hsum hs) (knownCode_eq_false.2 ⟨hhum, htemp, hco2⟩)

/-! ### The stages of a cycle (R180) -/

/-- The end of a READ leaves no working value, so it does not matter which there were. -/
@[simp] theorem State.finishRead_setCycle (s : State) (c : Cycle) (bytes : List Byte) (f : Option Frame) (o : ReadOutcome) :
    (s.setCycle c).finishRead bytes f o = s.finishRead bytes f o := rfl

theorem State.setPhase_setCycle (s : State) (c : Cycle) (p : Phase) :
    (s.setCycle c).setPhase p = (s.setPhase p).setCycle c := rfl

/-- Whether the tap comes before the return, as in the stages, or after it, as in READ, makes no difference. -/
theorem returnOutcome_tap (s : State) (bytes : List Byte) (f : Option Frame) (o : ReadOutcome) :
    (s.tap bytes f o).returnOutcome o = s.finishRead bytes f o := by
  rw [finishRead_eq, tap_eq]
  rfl

/-- A stage that yields ends the cycle with its outcome. -/
@[simp] theorem endOr_yield (s : State) (bytes : List Byte) (f : Option Frame) (o : ReadOutcome) (k : State → Result) :
    endOr bytes f (s.yield o) k = .next (s.finishRead bytes f o) :=
  congrArg Host.Outcome.next (returnOutcome_tap (s.yield o) bytes f o)

/-- A stage that does not yield goes on with the next. -/
theorem endOr_setCycle {c : Cycle} (s : State) (bytes : List Byte) (f : Option Frame) (k : State → Result)
    (h : c.outcome = none) : endOr bytes f (s.setCycle c) k = k (s.setCycle c) := by
  simp only [endOr, State.setCycle_cycle, h]

theorem exec_value_get (f : Frame) (s : State) :
    exec (.value (f.get 1) (f.get 2)) s = .next (s.setCycle { s.cycle with v := some (valueOf f) }) := rfl

theorem exec_dispatch (code : Byte) (s : State) :
    exec (.dispatch code) s = .next (s.setCycle { s.cycle with selected := some (classOf code) }) := rfl

/-- The classification that DISPATCH selects for a valid frame yields the frame's event. -/
theorem exec_classInstr {f : Frame} (s : State) (hm : markOk f = true) (hs : sumOk f = true) :
    exec (classInstr (classOf (f.get 0)) (valueOf f) f) s = .next (s.yield (.event (frameEvent f))) := by
  simp only [frameEvent, hm, hs, Bool.true_eq_false, if_false]
  cases classOf (f.get 0) <;> rfl

/-- Steps 5 to 8: whichever stage yields first, what it yields is the event of F. -/
theorem checkByStages_eq {s : State} (bytes : List Byte) (f : Frame) (h : s.cycle.outcome = none) :
    checkByStages bytes f s = .next (s.finishRead bytes (some f) (.event (frameEvent f))) := by
  unfold checkByStages
  cases hm : markOk f with
  | false => simp [exec_markchk_of_not_markOk s hm, frameEvent_of_marker_wrong hm]
  | true =>
    cases hs : sumOk f with
    | false =>
      simp [exec_markchk_of_markOk s hm, exec_sumchk_of_not_sumOk _ hs, endOr_setCycle, h,
        frameEvent_of_sum_wrong hm hs]
    | true =>
      simp [exec_markchk_of_markOk s hm, exec_sumchk_of_sumOk _ hs, endOr_setCycle, h, exec_value_get, exec_dispatch,
        exec_classInstr _ hm hs]

/-! ### DECSEL, and the whole cycle (R143, R180) -/

@[simp] theorem State.selectFrame_f (s : State) (b : Bool) (raw : Frame) :
    (s.selectFrame b raw).cycle.f = some (frameSeen s.key b raw) := by cases b <;> rfl

@[simp] theorem State.selectFrame_outcome (s : State) (b : Bool) (raw : Frame) :
    (s.selectFrame b raw).cycle.outcome = s.cycle.outcome := by cases b <;> rfl

@[simp] theorem State.finishRead_selectFrame (s : State) (b : Bool) (raw : Frame) (bytes : List Byte) (f : Option Frame)
    (o : ReadOutcome) : (s.selectFrame b raw).finishRead bytes f o = s.finishRead bytes f o := by cases b <;> rfl

theorem exec_decsel_of_decEn_none {s : State} (raw : Frame) (hd : s.decEn = none) :
    exec (.decsel raw) s = .refused .decEnHasNoValue := by
  simp only [exec, execDecsel, hd]

/-- The stages on the transport's answer, by the cause that ends them. -/
theorem readByStages_answered {s : State} (a : ReadAnswer) (hp : s.phase = .opened) :
    readByStages (.answered a) s = (s.call (.transportRead s.timeout a)).processAnswer a := by
  unfold readByStages
  rw [exec_recv_answered a hp, andThen_next]
  cases a with
  | ioerr =>
    simp [exec_iochk_ioerr, hp, receive_ioerr, processAnswer_ioerr, State.setPhase_setCycle]
  | ok bytes =>
    by_cases hl : bytes.length = 8
    · have hlen : lenOk bytes.length = true := lenOk_eq_true.2 hl
      cases hd : s.decEn with
      | none =>
        simp [exec_iochk_ok, hp, receive_of_length_eq s hl, exec_lenchk_of_lenOk, hlen, endOr_setCycle, countOf, Cycle.empty,
          exec_decsel_of_decEn_none, hd, processAnswer_of_decEn_none hl]
      | some b =>
        simp [exec_iochk_ok, hp, receive_of_length_eq s hl, exec_lenchk_of_lenOk, hlen, endOr_setCycle, countOf, bytesOf,
          Cycle.empty, exec_decsel (b := b), hd, processAnswer_of_decEn_some (b := b) hl, checkByStages_eq]
    · simp [exec_iochk_ok, hp, receive_of_length_ne s hl, exec_lenchk_of_not_lenOk, lenOk_eq_false.2 hl, endOr_setCycle,
        countOf, bytesOf, Cycle.empty, processAnswer_of_length_ne _ hl]

/-- Settles O43: while OPEN the stages go on with the answer as READ does, and elsewhere RECV is refused as READ is. -/
theorem readIsItsStages : Obligations.ReadIsItsStages := by
  intro rx s
  by_cases hp : s.phase = .opened
  · cases rx with
    | never => rw [exec_readOne_never hp, readByStages, exec_recv_never hp, andThen_fault]
    | answered a => rw [exec_readOne_answered a hp, readByStages_answered a hp]
  · have ha : admits .read s.phase = false := Bool.eq_false_iff.2 (mt admits_read.1 hp)
    rw [exec_of_not_admits rfl rfl ha, readByStages, exec_of_not_admits rfl rfl ha, andThen_refused]

/-! ### The session after a READ (R182) -/

theorem phaseAfter_eq_ended {a : ReadAnswer} : phaseAfter a = .ended ↔ a = .ioerr := by
  cases a <;> simp [phaseAfter, ioOk]

/-- A READ that the transport answers with bytes writes no register (R207). -/
theorem sameRegisters_of_exec_readOne_ok {s t : State} {bytes : List Byte}
    (h : exec (.readOne (.answered (.ok bytes))) s = .next t) : sameRegisters s t := by
  cases exec_effect h with
  | quiet _ hc => cases hc
  | readEvent _ _ _ _ ht => subst ht; exact ⟨State.finishRead_phase .., sameConfiguration_finishRead ..⟩

/-- Settles O47: the next READ finds the session that the first one found. -/
theorem softFailureKeepsTheSession : Obligations.SoftFailureKeepsTheSession := by
  intro s bytes a hp hd
  obtain ⟨b, hb⟩ := Option.ne_none_iff_exists'.1 hd
  obtain ⟨t, ht, -⟩ := exec_readOne_outcome (.ok bytes) hp hb
  have hregs := sameRegisters_of_exec_readOne_ok ht
  have ⟨hphase, _, hdec, _⟩ := hregs
  obtain ⟨u, hu, -, hend, -⟩ := exec_readOne_outcome a (hphase.trans hp) (hdec.trans hb)
  exact ⟨t, u, ht, hregs, hu, by rw [hend, phaseAfter_eq_ended]⟩

/-! ### What the caller gets (R184, R185) -/

/-- Settles O51: of exec's effects those of the commands end in one answer, and the others leave what the caller got. -/
theorem oneResponsePerCommand : Obligations.OneResponsePerCommand := by
  intro i s t h
  cases exec_effect h with
  | quiet _ hc _ _ hq =>
    obtain ⟨-, -, hcaller, -⟩ := hq
    exact ⟨fun hcmd => (Bool.eq_false_iff.1 hc hcmd).elim, fun _ => hcaller⟩
  | receives _ _ ht => subst ht; exact ⟨nofun, fun _ => rfl⟩
  | ends _ _ _ _ hr => exact ⟨nofun, fun _ => hr⟩
  | opens _ _ _ ht => rw [openWith_eq] at ht; subst ht; exact ⟨fun _ => ⟨_, rfl⟩, nofun⟩
  | readEnds _ ht | readEvent _ _ _ _ ht => subst ht; exact ⟨fun _ => ⟨_, State.finishRead_toCaller ..⟩, nofun⟩
  | configKey _ _ ht | configDebug _ _ ht | configTimeout _ _ _ _ ht | timeoutRejected _ _ _ ht | openFails _ ht | closes _ ht =>
    subst ht; exact ⟨fun _ => ⟨_, rfl⟩, nofun⟩

/-! ### The debug tap and the export points (R183, R186) -/

theorem exec_dbgtap (bytes : List Byte) (f : Option Frame) (o : ReadOutcome) (s : State) :
    exec (.dbgtap bytes f o) s = .next (s.tap bytes f o) := rfl

/-- Settles O39: the tap's condition decided by DEBUG and the outcome. -/
theorem debugTapOnlyLogs : Obligations.DebugTapOnlyLogs := by
  refine fun s bytes f => ⟨fun e hdebug => ?event, ?endOfSequence, fun o hdebug => ?off⟩
  case event => rw [exec_dbgtap, tap_eq]; simp [hdebug]
  case endOfSequence => simp [exec_dbgtap, State.tap]
  case off => simp [exec_dbgtap, State.tap, hdebug]

/-- Settles O59: the table of R186 is written out in `exportPoint`, and the two scalings by their definitions. -/
theorem exportsThreeMeasurements : Obligations.ExportsThreeMeasurements := fun _ _ =>
  ⟨rfl, rfl, rfl, rfl, rfl, rfl, rfl, rfl, rfl⟩

end Sys2Proof.Machine
end

section
/-! SUPPORT. The exceptions: a read that the transport never answers (R211, I14), with the statement of 60_exceptions.md. -/

namespace Sys2Proof.Machine

open Sys2Proof

/-- Settles O41: READ and RECV are both admitted while OPEN, and without an answer neither looks at TIMEOUT. -/
theorem unansweredReadNeverReturns : Obligations.UnansweredReadNeverReturns := fun _ hp =>
  ⟨exec_readOne_never hp, exec_recv_never hp⟩

end Sys2Proof.Machine
end

section
/-! SUPPORT. The step on the oldest request, the configuration frozen in a session (R247) and the session on record (R231), with the
statements of 70_reset_and_hazards.md. -/

namespace Sys2Proof.Machine

open Sys2Proof

/-- The oldest request, where it is a well-formed operation, is taken off and run. -/
theorem step_of_operation {s : State} {i : Instr} {rest : List Request} (hp : s.pending = .operation i :: rest)
    (hw : i.wellFormed = true) : step s = exec i (s.setPending rest) := by
  simp only [step, hp, hw, if_true]

/-! ### The session on record (R23, R231) -/

/-- In a session that stays one the configuration stays: its writers are admitted while CLOSED only, but for CLOSE, and CLOSE ends
the session. -/
theorem exec_keeps_configuration {i : Instr} {s t : State} (hs : s.phase ≠ .closed) (h : exec i s = .next t)
    (ht : t.phase ≠ .closed) : sameConfiguration s t := by
  have hclose : i ≠ .closeSession := by
    rintro rfl
    rw [exec_closeSession hs] at h
    cases h
    exact ht rfl
  obtain ⟨hkey, hdecEn, htimeout, hdebug⟩ := registerWriters i s t h hclose
  exact ⟨by_contra fun hne => hs (hkey hne).1, by_contra fun hne => hs (hdecEn hne).1,
    by_contra fun hne => hs (htimeout hne).1, by_contra fun hne => hs (hdebug hne).1⟩

/-- Calls that are all reads with the bound `τ` (R140). -/
def ReadsOnly (τ : Timeout) (calls : List TransportCall) : Prop := ∀ c ∈ calls, ∃ a, c = .transportRead τ a

theorem readsOnly_nil (τ : Timeout) : ReadsOnly τ [] := nofun

theorem readsOnly_singleton (τ : Timeout) (a : ReadAnswer) : ReadsOnly τ [.transportRead τ a] := fun _ hc =>
  ⟨a, List.mem_singleton.1 hc⟩

theorem ReadsOnly.append {τ : Timeout} {calls more : List TransportCall} (hc : ReadsOnly τ calls) (hm : ReadsOnly τ more) :
    ReadsOnly τ (calls ++ more) := fun c h =>
  (List.mem_append.1 h).elim (hc c) (hm c)

@[simp] theorem State.finishRead_wire (s : State) (bytes : List Byte) (f : Option Frame) (o : ReadOutcome) :
    (s.finishRead bytes f o).wire = s.wire := by rw [finishRead_eq]

/-- In a session that stays one the only calls are READ's and RECV's, bounded by TIMEOUT (R57, R140). -/
theorem exec_calls_readsOnly {i : Instr} {s t : State} (hs : s.phase ≠ .closed) (h : exec i s = .next t)
    (ht : t.phase ≠ .closed) : ∃ reads, t.wire = s.wire ++ reads ∧ ReadsOnly s.timeout reads := by
  have hnone (hw : t.wire = s.wire) : ∃ reads, t.wire = s.wire ++ reads ∧ ReadsOnly s.timeout reads :=
    ⟨[], by rw [hw, List.append_nil], readsOnly_nil _⟩
  cases exec_effect h with
  | quiet _ _ _ _ hq =>
    obtain ⟨-, hw, -⟩ := hq
    exact hnone hw
  | ends _ _ _ hw => exact hnone hw
  | readEnds _ he | readEvent _ _ _ _ he => subst he; exact ⟨_, State.finishRead_wire .., readsOnly_singleton _ _⟩
  | receives a _ he => subst he; exact ⟨_, rfl, readsOnly_singleton _ a⟩
  | closes _ he => subst he; exact absurd rfl ht
  | configKey _ hp | configDebug _ hp | configTimeout _ _ hp | timeoutRejected _ hp | openFails hp | opens _ _ hp =>
    exact absurd hp hs

/-- A session goes on with further reads (R63). -/
theorem SessionCalls.append_reads {k : Key} {τ : Timeout} {fw : Nat} {calls more : List TransportCall}
    (h : SessionCalls k τ fw calls) (hm : ReadsOnly τ more) : SessionCalls k τ fw (calls ++ more) := by
  obtain ⟨vid, pid, feat, reads, rfl, hr⟩ := h
  exact ⟨vid, pid, feat, reads ++ more, List.append_assoc .., ReadsOnly.append hr hm⟩

/-- What OPEN calls and writes is the record of a session with no read yet (R122, R123). -/
theorem openWith_sessionOnRecord (s : State) (fw : Nat) (feat : WriteAnswer) : (s.openWith fw feat).SessionOnRecord := by
  rw [openWith_eq]
  exact fun _ => ⟨s.wire, _, fw, rfl, ⟨_, _, feat, [], rfl, readsOnly_nil _⟩, rfl⟩

/-- A record stays one where the configuration stays and the calls added are reads. -/
theorem State.SessionOnRecord.of_reads {s t : State} (hs : s.SessionOnRecord) (hp : s.phase ≠ .closed)
    (hc : sameConfiguration s t) {reads : List TransportCall} (hw : t.wire = s.wire ++ reads)
    (hr : ReadsOnly s.timeout reads) : t.SessionOnRecord := by
  intro _
  obtain ⟨earlier, calls, fw, hwire, hcalls, hfw⟩ := hs hp
  obtain ⟨hkey, hdecEn, htimeout, -⟩ := hc
  refine ⟨earlier, calls ++ reads, fw, ?_, ?_, hdecEn.trans hfw⟩
  · rw [hw, hwire, List.append_assoc]
  · rw [hkey, htimeout]
    exact hcalls.append_reads hr

/-- Where there was no session OPEN alone starts one, and it puts its own calls on record; a session that stays one keeps its
configuration and adds reads only. -/
theorem exec_keeps_sessionOnRecord {i : Instr} {s t : State} (hs : s.SessionOnRecord) (h : exec i s = .next t) :
    t.SessionOnRecord := by
  intro ht
  by_cases hp : s.phase = .closed
  · have hne : t.phase ≠ s.phase := fun he => ht (he.trans hp)
    obtain ⟨-, -, fw, feat, rfl⟩ | ⟨hopen, -⟩ | ⟨hsession, -⟩ := phaseTransitions i s t h hne
    · rw [exec_openSession_ok fw feat hp] at h
      cases h
      exact openWith_sessionOnRecord s fw feat ht
    · rw [hp] at hopen
      cases hopen
    · exact absurd hp hsession
  · obtain ⟨reads, hw, hr⟩ := exec_calls_readsOnly hp h ht
    exact hs.of_reads hp (exec_keeps_configuration hp h ht) hw hr ht

/-! ### The statements -/

/-- Settles O57: a step waits, or runs an operation, and every operation keeps the session on record. -/
theorem stepKeepsSessionOnRecord : Obligations.StepKeepsSessionOnRecord := by
  intro s t hs h
  obtain rfl | ⟨i, q, rest, -, hi⟩ := step_next h
  · exact hs
  · exact exec_keeps_sessionOnRecord (s := s.setPending rest) hs hi

/-- Settles O50: a step waits, or runs an operation, and none writes the configuration in a session that stays one. -/
theorem configurationFrozenInSession : Obligations.ConfigurationFrozenInSession := by
  intro s t hs h ht
  obtain rfl | ⟨i, q, rest, -, hi⟩ := step_next h
  · exact ⟨rfl, rfl, rfl, rfl⟩
  · exact exec_keeps_configuration (s := s.setPending rest) hs hi ht

/-- Settles O2: the branches of the step, one for each form of the oldest request. -/
theorem stepRunsTheOldestRequest : Obligations.StepRunsTheOldestRequest := by
  refine fun s => ⟨fun hp => ?empty, fun i rest hp hw => step_of_operation hp hw, fun i rest hp hw => ?illFormed,
    fun bytes rest i hp hd => step_of_frame hp hd, fun bytes rest e hp hd => ?undecodable⟩
  case empty => simp only [step, hp]
  case illFormed => simp only [step, hp, hw, Bool.false_eq_true, if_false]
  case undecodable => simp only [step, hp, hd]

end Sys2Proof.Machine
end
